-- ==== Sys2Proof/Word.lean ====
section
/-! DEFINITION. The word types of the vyos-1x XDP core (00_scope.md R8, R9; 30_encoding.md R62). -/

namespace Sys2Proof

/-- One byte of a frame (R10). -/
abbrev Byte := BitVec 8

/-- One micro-operation word of a ROM (R62). -/
abbrev Word := BitVec 16

/-- A frame offset or a frame length, OFF_BITS = 32 (R8, R23 to R26). -/
abbrev Offset := BitVec 32

/-- An interface id (R23, R32, R38). -/
abbrev IfId := BitVec 32

/-- A MAC address as a 48-bit value, whose big-endian encoding is the wire string (R38, R113). -/
abbrev Mac := BitVec 48

/-- A field of a Counter Table record, CTR_BITS = 64 (R8, R39). -/
abbrev Counter := BitVec 64

end Sys2Proof
end

