-- ==== Sys2Proof/Syntax.lean ====
section
/-! DEFINITION. The micro-operations: one constructor for each row of spec/opcode_table.json (30_encoding.md R64).
The operand types are exact: `n` is the byte count of format L, 0..255, and `t` the ROM target of format T, 0..63 (R62, R63),
so every term is a well-formed micro-operation and carries no reserved bit. -/

namespace Sys2Proof

/-- The 25 micro-operations (R64). -/
inductive Instr where
  /-- ILL, the illegal micro-operation (R121). -/
  | ill
  /-- CINIT: initialise the cursor and the working registers (R79). -/
  | cinit
  /-- CHK n: check that n bytes follow the cursor (R80). -/
  | chk (n : BitVec 8)
  /-- ADV n: check, then advance the cursor (R81). -/
  | adv (n : BitVec 8)
  /-- ETH: check the Ethernet header, read its protocol field (R85). -/
  | eth
  /-- VLAN: unwrap one tag (R86). -/
  | vlan
  /-- JP4 t: branch if the protocol is IPv4 (R87). -/
  | jp4 (t : BitVec 6)
  /-- JP6 t: branch if the protocol is IPv6 (R88). -/
  | jp6 (t : BitVec 6)
  /-- UNSUP: resolve an unsupported protocol (R89). -/
  | unsup
  /-- C4DST: classifier rule 1 (R93). -/
  | c4dst
  /-- C4FRAG: classifier rule 2 (R94). -/
  | c4frag
  /-- C4L4: classifier rule 3, first half, IPv4 (R95). -/
  | c4l4
  /-- C6L4: classifier rule 3, first half, IPv6 (R96). -/
  | c6l4
  /-- CUDP: classifier rule 3, second half, and rule 4 (R97). -/
  | cudp
  /-- TTL4: the IPv4 hop-count guard (R101). -/
  | ttl4
  /-- Q4: build the IPv4 query (R102). -/
  | q4
  /-- TTL6: the IPv6 hop-count guard (R103). -/
  | ttl6
  /-- Q6: build the IPv6 query (R104). -/
  | q6
  /-- FIB: the routing lookup (R105). -/
  | fib
  /-- FDISP: dispatch on the lookup result (R106). -/
  | fdisp
  /-- DEC4: decrement the TTL, update the checksum (R111). -/
  | dec4
  /-- DEC6: decrement the hop limit (R112). -/
  | dec6
  /-- L2RW: substitute both MAC addresses (R113). -/
  | l2rw
  /-- REDIR: select the egress (R114). -/
  | redir
  /-- FIN: count the action and return it (R120). -/
  | fin
deriving DecidableEq, Repr

end Sys2Proof
end

