-- ==== Sys2Proof/WellFormed.lean ====
section
/-! DEFINITION. Which words are legal, written from the list of illegal words in 30_encoding.md R66 and NOT from the opcode map
of R64 that the decoder follows (so that agreement of the two is a claim), and which ROM images are well formed. -/

namespace Sys2Proof

/-- The opcodes R66 lists as absent from the map: 0x01–0x0F, 0x13–0x1F, 0x25–0x2F, 0x35–0x3F, 0x4A–0x4F, 0x51–0xFF. -/
def opAbsent (op : Nat) : Bool :=
  (0x01 ≤ op && op ≤ 0x0F) || (0x13 ≤ op && op ≤ 0x1F) || (0x25 ≤ op && op ≤ 0x2F) ||
  (0x35 ≤ op && op ≤ 0x3F) || (0x4A ≤ op && op ≤ 0x4F) || (0x51 ≤ op && op ≤ 0xFF)

/-- The words that execute as ILL, by the four lines of R66: an absent op; op 0x00 with any imm; a format-N word with imm ≠ 0;
a format-T word (JP4, JP6) with imm[7:6] ≠ 0. CHK and ADV (format L) take any imm. -/
def illegalWord (w : Word) : Bool :=
  let op := w.toNat / 256
  let imm := w.toNat % 256
  opAbsent op || op == 0x00 ||
  (if op == 0x11 || op == 0x12 then false
   else if op == 0x22 || op == 0x23 then imm / 64 != 0
   else imm != 0)

/-- A word of the opcode map with a micro-operation other than ILL. -/
def legalWord (w : Word) : Bool := !illegalWord w

/-- A ROM image is well formed when it has 64 words (R40), each legal or 0x0000 (R66), CINIT at the entry point 0x00 (R151),
FIN at FINPC = 0x3F (R52), and at most two VLAN words (R157). -/
def romWellFormed (rom : List Word) : Bool :=
  rom.length == 64 &&
  rom.all (fun w => legalWord w || w == 0x0000#16) &&
  rom.getD 0x00 0#16 == 0x1000#16 &&
  rom.getD 0x3F 0#16 == 0x5000#16 &&
  decide ((rom.filter (fun w => w == 0x2100#16)).length ≤ 2)

end Sys2Proof
end

