-- ==== Sys2Proof/Decode.lean ====
section
/-! DEFINITION. Decoding (30_encoding.md R62 to R67, 45_sequencer.md R117) and, after it, the encoder. -/

namespace Sys2Proof

/-- The three formats of R62. -/
inductive Format where
  /-- no operand: imm = 0x00 -/
  | N
  /-- a byte count: any imm -/
  | L
  /-- a ROM target: imm[7:6] = 0b00 -/
  | T
deriving DecidableEq, Repr

/-- Why a word has no row of its own in the opcode map (R66). -/
inductive Reject where
  /-- its op is not in the table of R64 -/
  | unknownOpcode
  /-- a format-N word with imm ≠ 0 -/
  | nonzeroImmediate
  /-- a format-T word with imm[7:6] ≠ 0 -/
  | targetTooLarge
deriving DecidableEq, Repr

/-- w[15:8] (R62). -/
def opField (w : Word) : BitVec 8 := w.extractLsb' 8 8

/-- w[7:0] (R62). -/
def immField (w : Word) : BitVec 8 := w.extractLsb' 0 8

/-- One row of the opcode map: op, format, and the micro-operation its imm gives. -/
structure OpRow where
  op     : BitVec 8
  format : Format
  make   : BitVec 8 → Instr

/-- The target t = zext_6(w[5:0]) of a format-T word (R63). -/
def targetOperand (imm : BitVec 8) : BitVec 6 := imm.extractLsb' 0 6

/-- The opcode map, row by row as R64 lists it. -/
def opcodeMap : List OpRow :=
  [ ⟨0x00, .N, fun _ => .ill⟩,
    ⟨0x10, .N, fun _ => .cinit⟩,
    ⟨0x11, .L, fun imm => .chk imm⟩,
    ⟨0x12, .L, fun imm => .adv imm⟩,
    ⟨0x20, .N, fun _ => .eth⟩,
    ⟨0x21, .N, fun _ => .vlan⟩,
    ⟨0x22, .T, fun imm => .jp4 (targetOperand imm)⟩,
    ⟨0x23, .T, fun imm => .jp6 (targetOperand imm)⟩,
    ⟨0x24, .N, fun _ => .unsup⟩,
    ⟨0x30, .N, fun _ => .c4dst⟩,
    ⟨0x31, .N, fun _ => .c4frag⟩,
    ⟨0x32, .N, fun _ => .c4l4⟩,
    ⟨0x33, .N, fun _ => .c6l4⟩ ] ++
  [ ⟨0x34, .N, fun _ => .cudp⟩,
    ⟨0x40, .N, fun _ => .ttl4⟩,
    ⟨0x41, .N, fun _ => .q4⟩,
    ⟨0x42, .N, fun _ => .ttl6⟩,
    ⟨0x43, .N, fun _ => .q6⟩,
    ⟨0x44, .N, fun _ => .fib⟩,
    ⟨0x45, .N, fun _ => .fdisp⟩,
    ⟨0x46, .N, fun _ => .dec4⟩,
    ⟨0x47, .N, fun _ => .dec6⟩,
    ⟨0x48, .N, fun _ => .l2rw⟩,
    ⟨0x49, .N, fun _ => .redir⟩,
    ⟨0x50, .N, fun _ => .fin⟩ ]

/-- Whether a format admits an imm (R62); the name of the rejection where it does not. -/
def Format.reject (f : Format) (imm : BitVec 8) : Option Reject :=
  match f with
  | .N => if imm = 0 then none else some .nonzeroImmediate
  | .L => none
  | .T => if imm.extractLsb' 6 2 = 0 then none else some .targetTooLarge

/-- The row of the map for a word, or the rejection by name (R64, R66). -/
def decodeRow (w : Word) : Except Reject Instr :=
  match opcodeMap.find? (fun r => r.op == opField w) with
  | none => .error .unknownOpcode
  | some r =>
    match r.format.reject (immField w) with
    | some e => .error e
    | none => .ok (r.make (immField w))

/-- The decoder (R117): every word decodes, and a word the map rejects executes as ILL (R66). -/
def decode (w : Word) : Instr :=
  match decodeRow w with
  | .ok i => i
  | .error _ => .ill

/-- The instruction the decoder reads from a word numbered as spec/opcode_table.json numbers it: one 16-bit word, fetched whole
(R45, R62). -/
def decodeTableWord (nbits w : Nat) : Option Instr :=
  some (decode (BitVec.ofNat 16 (w % 2 ^ nbits)))

/-- `w = op << 8 | imm` (R68). -/
def packWord (op imm : BitVec 8) : Word := (op.setWidth 16 <<< 8) ||| imm.setWidth 16

/-- The word of each micro-operation, from the match column of R64 and the templates of R79 to R121. -/
def encode : Instr → Word
  | .ill => packWord 0x00 0
  | .cinit => packWord 0x10 0
  | .chk n => packWord 0x11 n
  | .adv n => packWord 0x12 n
  | .eth => packWord 0x20 0
  | .vlan => packWord 0x21 0
  | .jp4 t => packWord 0x22 (t.setWidth 8)
  | .jp6 t => packWord 0x23 (t.setWidth 8)
  | .unsup => packWord 0x24 0
  | .c4dst => packWord 0x30 0
  | .c4frag => packWord 0x31 0
  | .c4l4 => packWord 0x32 0
  | .c6l4 => packWord 0x33 0
  | .cudp => packWord 0x34 0
  | .ttl4 => packWord 0x40 0
  | .q4 => packWord 0x41 0
  | .ttl6 => packWord 0x42 0
  | .q6 => packWord 0x43 0
  | .fib => packWord 0x44 0
  | .fdisp => packWord 0x45 0
  | .dec4 => packWord 0x46 0
  | .dec6 => packWord 0x47 0
  | .l2rw => packWord 0x48 0
  | .redir => packWord 0x49 0
  | .fin => packWord 0x50 0

end Sys2Proof
end

