-- ==== Sys2Proof/Machine/Constants.lean ====
section
/-! DEFINITION. The named constants: sizes (00_scope.md R8), interface codes and protocol numbers (30_encoding.md R69 to R77). -/

namespace Sys2Proof.Machine

/-- FINPC, the ROM address of FIN (R13, R52). -/
def finPc : BitVec 6 := 0x3F

/-- ETH_HDR_BYTES (R8, R72). -/
def ethHdrBytes : Nat := 14
/-- VLAN_TAG_BYTES (R8, R73). -/
def vlanTagBytes : Nat := 4
/-- IPV4_HDR_BYTES (R8, R74). -/
def ipv4HdrBytes : Nat := 20
/-- HOP_GUARD (R8). -/
def hopGuard : Nat := 1
/-- ACTION_MAX (R8, R69). -/
def actionMax : Nat := 5
/-- FLOWINFO_MASK (R8). -/
def flowinfoMask : BitVec 32 := 0x0FFFFFFF

/-- ET_IPV4 (R77). -/
def etIpv4 : BitVec 16 := 0x0800
/-- ET_IPV6 (R77). -/
def etIpv6 : BitVec 16 := 0x86DD
/-- ET_8021Q (R77). -/
def et8021q : BitVec 16 := 0x8100
/-- ET_8021AD (R77). -/
def et8021ad : BitVec 16 := 0x88A8
/-- IPPROTO_UDP (R77). -/
def ipprotoUdp : Nat := 17
/-- DNS_PORT (R8, R77). -/
def dnsPort : Nat := 53

/-- Action ABORTED (R69). -/
def actAborted : BitVec 3 := 0
/-- Action DROP (R69). -/
def actDrop : BitVec 3 := 1
/-- Action PASS (R69). -/
def actPass : BitVec 3 := 2
/-- Action REDIRECT (R69). -/
def actRedirect : BitVec 3 := 4

/-- Cause NONE (R70). -/
def causeNone : BitVec 4 := 0
/-- Cause TRUNC (R70). -/
def causeTrunc : BitVec 4 := 1
/-- Cause UNSUP (R70). -/
def causeUnsup : BitVec 4 := 2
/-- Cause SOFT (R70). -/
def causeSoft : BitVec 4 := 3
/-- Cause HARD (R70). -/
def causeHard : BitVec 4 := 4
/-- Cause BADACT (R70). -/
def causeBadact : BitVec 4 := 5
/-- Cause R1_DSTOCT (R70). -/
def causeDstOct : BitVec 4 := 6
/-- Cause R2_FRAG (R70). -/
def causeFrag : BitVec 4 := 7
/-- Cause R3_DNS (R70). -/
def causeDns : BitVec 4 := 8
/-- Cause R4_DEFAULT (R70). -/
def causeDefault : BitVec 4 := 9
/-- Cause TTL_GUARD (R70). -/
def causeTtlGuard : BitVec 4 := 10
/-- Cause FORWARDED (R70). -/
def causeForwarded : BitVec 4 := 11
/-- Cause DEVMAP_MISS (R70). -/
def causeDevmapMiss : BitVec 4 := 12
/-- Cause BAD_IHL (R70). -/
def causeBadIhl : BitVec 4 := 13

end Sys2Proof.Machine
end

