-- ==== Sys2Proof/Machine/Records.lean ====
section
/-! DEFINITION. The records the core exchanges with the routing-lookup service and keeps in the Counter Table (10_state.md R37 to R39). -/

namespace Sys2Proof.Machine

/-- Q.family, one bit: 0 = IPV4, 1 = IPV6 (R37). -/
inductive Family where
  | ipv4
  | ipv6
deriving DecidableEq, Repr, Inhabited

/-- The one-bit code of a family on the lookup port (R37). -/
def Family.code : Family → BitVec 1
  | .ipv4 => 0
  | .ipv6 => 1

/-- The Lookup Query record Q (R37). Addresses are byte strings in wire order (R10, R44). -/
structure Query where
  family : Family
  tos    : BitVec 32
  l4p    : BitVec 8
  tlen   : BitVec 16
  src    : List Byte
  dst    : List Byte
  iif    : IfId
deriving DecidableEq, Repr, Inhabited

/-- The Lookup Result record R (R38): any rc in 0..15, any oif, smac and dmac (R136). -/
structure LookupResult where
  rc   : BitVec 4
  oif  : IfId
  smac : Mac
  dmac : Mac
deriving DecidableEq, Repr, Inhabited

/-- One Counter Table record: the packet count `pk` and the byte count `bys` (the spec's `by`) (R39). -/
structure Record where
  pk  : Counter
  bys : Counter
deriving DecidableEq, Repr, Inhabited

/-- One unit's slice of the Counter Table: a record for each action code 0..4 (R39, R69). -/
structure Slice where
  aborted  : Record
  drop     : Record
  pass     : Record
  tx       : Record
  redirect : Record
deriving DecidableEq, Repr, Inhabited

end Sys2Proof.Machine
end

