-- ==== Sys2Proof/Config.lean ====
section
/-! DEFINITION. What the build fixes (00_scope.md R8) and the free values, which have no body: no proof can see what they are. -/

namespace Sys2Proof

open Sys2Proof.Machine

/-- The number of execution units of the reset state. R8: OPEN, at least 1. DESIGN CHOICE (log 5): claims hold for every number of units. -/
def Config.numUnits : Nat := 2

/-- LEN_MAX of the reset state. R8: OPEN, at most 2^32 − 1. DESIGN CHOICE (log 6): claims hold for every value of the State field. -/
def Config.lenMax : Offset := 0xFFFFFFFF

/-- CFG of the reset state: the default of each of the four switches (R8, R33). -/
def Config.cfg : BitVec 4 := 0

/-- FREE VALUE (R136, U9; log 11). The routing-lookup service's answer to draw number `draw` of unit `unit` on the query `q`,
where the State lists no answer. -/
opaque Config.lookupAnswer (unit draw : Nat) (q : Query) : LookupResult

/-- FREE VALUE (R137, U11; log 12). Whether the device map holds `oif`, where the State lists no answer. -/
opaque Config.devmapAnswer (unit draw : Nat) (oif : IfId) : Bool

/-- FREE VALUE (log 13). The byte DEC4 or DEC6 writes when the hop count it decrements is 0: R111 and R112 state no result there. -/
opaque Config.hopOfZero (unit draw : Nat) : Byte

/-- FREE VALUE (log 14). What pos holds after C4L4 when the sum l3 + 4·IHL or l3 + 20 does not fit its 32 bits: R95 states no result there. -/
opaque Config.offsetOver (unit draw : Nat) : Offset

/-- FREE VALUE (log 15). What vdepth holds after a VLAN unwrap from vdepth = 3: R86 states no result that fits its 2 bits. -/
opaque Config.depthOver (unit draw : Nat) : BitVec 2

end Sys2Proof
end

