-- ==== Sys2Proof/Machine/Memory.lean ====
section
/-! DEFINITION. The frame space of one unit (20_memory.md R40, R43 to R49): (offset, byte) cells in ONE canonical form,
offsets strictly rising and no cell holding the byte an unlisted offset reads as. -/

namespace Sys2Proof.Machine

/-- A frame's bytes. -/
abbrev Memory := List Host.Cell

/-- What an unlisted offset reads as: 0x00. DESIGN CHOICE (log 1): at an offset inside the frame this is how a zero byte is
held; an offset at or past `end` is never read (R48). -/
def Memory.unlisted : Byte := 0

/-- The byte at offset `a` (R10). -/
def Memory.read : Memory → Nat → Byte
  | [], _ => Memory.unlisted
  | (k, b) :: rest, a => if k = a then b else Memory.read rest a

/-- Remove what is listed at `a`. -/
def Memory.erase (m : Memory) (a : Nat) : Memory := m.filter (fun c => c.1 != a)

/-- List `v` at `a`, before the first higher offset. -/
def Memory.insert : Memory → Nat → Byte → Memory
  | [], a, v => [(a, v)]
  | (k, b) :: rest, a, v => if a < k then (a, v) :: (k, b) :: rest else (k, b) :: Memory.insert rest a v

/-- F[a] ← v. Writing the byte an unlisted offset reads as removes the cell. -/
def Memory.write (m : Memory) (a : Nat) (v : Byte) : Memory :=
  if v = Memory.unlisted then m.erase a else (m.erase a).insert a v

/-- F[o .. o+n−1] as a byte string (R10). -/
def Memory.bytes (m : Memory) (o : Nat) : Nat → List Byte
  | 0 => []
  | n + 1 => m.read o :: Memory.bytes m (o + 1) n

/-- Write a byte string at offset `o` (R49). -/
def Memory.writeBytes (m : Memory) (o : Nat) : List Byte → Memory
  | [] => m
  | b :: bs => Memory.writeBytes (m.write o b) (o + 1) bs

/-- The memory that holds a byte string from offset 0. -/
def Memory.ofBytes (bs : List Byte) : Memory := Memory.writeBytes [] 0 bs

/-- Every listed offset is at least `lo`, the offsets rise strictly, and no cell holds the unlisted byte. -/
def Memory.wfFrom (lo : Nat) : Memory → Bool
  | [] => true
  | (k, b) :: rest => decide (lo ≤ k) && b != Memory.unlisted && Memory.wfFrom (k + 1) rest

/-- The canonical form. -/
def Memory.wf (m : Memory) : Bool := Memory.wfFrom 0 m

/-- The unsigned integer whose big-endian encoding is the byte string (R12, R43). -/
def beValue : List Byte → Nat
  | [] => 0
  | b :: bs => b.toNat * 256 ^ bs.length + beValue bs

/-- The `n`-byte big-endian encoding of `v`: byte k is v[8(n−1−k)+7 : 8(n−1−k)] (R12, R49). -/
def beBytes : Nat → Nat → List Byte
  | 0, _ => []
  | n + 1, v => BitVec.ofNat 8 (v / 256 ^ n) :: beBytes n v

end Sys2Proof.Machine
end

