-- ==== Sys2Proof/Machine/Rom.lean ====
section
/-! DEFINITION. The contents of the two ROMs (45_sequencer.md R122, R123). Addresses not listed hold 0x0000. -/

namespace Sys2Proof.Machine

/-- Addresses 00 to 04 and 06 of both ROMs: CINIT; ETH; VLAN; VLAN; JP4 0x07; JP6 t6; UNSUP (R84, R122, R123). -/
def romWalk (jp6 : Word) : List Word :=
  [0x1000, 0x2000, 0x2100, 0x2100, 0x2207, jp6, 0x2400]

/-- ROM 0, the drop filter (R122). -/
def romDropFilter : List Word :=
  romWalk 0x230D ++
  -- 07 CHK 20; C4DST; C4FRAG; C4L4; CHK 8; CUDP
  [0x1114, 0x3000, 0x3100, 0x3200, 0x1108, 0x3400] ++
  -- 0D CHK 40; C6L4; ADV 40; CHK 8; CUDP
  [0x1128, 0x3300, 0x1228, 0x1108, 0x3400] ++
  -- 12..3E
  List.replicate 45 0x0000 ++
  -- 3F FIN
  [0x5000]

/-- ROM 1, the forwarder (R123). -/
def romForwarder : List Word :=
  romWalk 0x230F ++
  -- 07 CHK 20; TTL4; Q4; FIB; FDISP; DEC4; L2RW; REDIR
  [0x1114, 0x4000, 0x4100, 0x4400, 0x4500, 0x4600, 0x4800, 0x4900] ++
  -- 0F CHK 40; TTL6; Q6; FIB; FDISP; DEC6; L2RW; REDIR
  [0x1128, 0x4200, 0x4300, 0x4400, 0x4500, 0x4700, 0x4800, 0x4900] ++
  -- 17..3E
  List.replicate 40 0x0000 ++
  -- 3F FIN
  [0x5000]

end Sys2Proof.Machine
end

