-- ==== Sys2Proof/Machine/State.lean ====
section
/-! DEFINITION. The state of the core (10_state.md), the reasons a step can stop, and the state at power-on
(10_state.md R42, 70_reset_and_hazards.md R146). -/

namespace Sys2Proof.Machine

/-- The reasons of `raise Fault(f)` (60_exceptions.md R130). They put a unit into FAULT and are a NEXT state of the core. -/
inductive FaultReason where
  /-- OOB_READ: a MemRead or MemBytes outside [0, end) (R48). -/
  | oobRead
  /-- OOB_WRITE: a MemWrite or MemWriteBytes outside [0, end) (R49). -/
  | oobWrite
  /-- UNWRITTEN: a read of an unwritten register (R32). -/
  | unwritten
  /-- ILLEGAL: an illegal word (R121). -/
  | illegal
deriving DecidableEq, Repr

/-- ST, the run state of a unit (R36); FAULT keeps its reason (R13). -/
inductive RunState where
  | idle
  | run
  | fault (reason : FaultReason)
deriving DecidableEq, Repr

/-- An invocation request (u, F, len, iif) of the host (R125). -/
structure Request where
  unit  : Nat
  bytes : List Byte
  len   : Offset
  iif   : IfId
deriving DecidableEq, Repr

/-- An invocation response (out, tgt_out, F′) (R126). -/
structure Response where
  out   : BitVec 3
  tgt   : Option IfId
  bytes : List Byte
deriving DecidableEq, Repr

/-- The two fields of a Counter Table record (R138). -/
inductive CounterField where
  | pk
  | bys
deriving DecidableEq, Repr

/-- One answer of the counter monitor port: the field CT[unit][action].field held `value` (R56, R138). -/
structure MonitorRead where
  unit   : Nat
  action : Nat
  field  : CounterField
  value  : Counter
deriving DecidableEq, Repr

/-- One move of an agent (R20). The agenda of State lists the moves to come (log 8). -/
inductive Move where
  /-- unit u takes its next step (R116) -/
  | unitStep (u : Nat)
  /-- the host submits a request (R125) -/
  | request (r : Request)
  /-- the control plane loads a program (R149) -/
  | load (p : BitVec 2)
  /-- the monitor reads one field (R138) -/
  | monitor (u a : Nat) (f : CounterField)
deriving DecidableEq, Repr

/-- The state of one execution unit (R21). An `Option` register is `none` while it is UNWRITTEN, the spec's own state (R32). -/
structure UnitState where
  st     : RunState
  pc     : BitVec 6
  frame  : Memory
  len    : Offset
  iif    : IfId
  pos    : Option Offset
  /-- the spec's `end` (R25) -/
  endOff : Option Offset
  l3     : Option Offset
  proto  : Option (BitVec 16)
  vdepth : Option (BitVec 2)
  act    : Option (BitVec 3)
  cause  : Option (BitVec 4)
  tgt    : Option IfId
  q      : Option Query
  r      : Option LookupResult
  /-- CT[u], this unit's slice of the Counter Table (R39) -/
  ct     : Slice
  /-- the model's own: the responses emitted since the last LOAD, newest first (R126; log 17) -/
  responses     : List Response
  /-- the model's own: the lookup service's answers to come (R136; log 11) -/
  lookupAnswers : List LookupResult
  /-- the model's own: the device map's answers to come (R137; log 12) -/
  devmapAnswers : List Bool
  /-- the model's own: how many free values this unit has drawn (log 20) -/
  draws  : Nat
deriving DecidableEq, Repr

/-- The state of the core (R21). -/
structure State where
  /-- CFG (R33): fixed by the build; no step writes it -/
  cfg    : BitVec 4
  /-- LEN_MAX (R8): fixed by the build; no step writes it -/
  lenMax : Offset
  /-- ROM 0 (R122): fixed by the build; no step writes it -/
  rom0   : List Word
  /-- ROM 1 (R123): fixed by the build; no step writes it -/
  rom1   : List Word
  /-- PROG (R34) -/
  prog   : BitVec 2
  /-- the execution units u = 0 .. NUM_UNITS − 1 (R142) -/
  units  : List UnitState
  /-- the model's own: the unit that goes on when the agenda is empty (log 8) -/
  turn   : Nat
  /-- the model's own: the moves to come (log 8) -/
  agenda : List Move
  /-- the model's own: the monitor's answers, newest first (log 18) -/
  monitorLog : List MonitorRead
deriving DecidableEq, Repr

/-- The reasons the whole machine stops. -/
inductive Fault where
  /-- Raised by `step` when the unit to move is in FAULT: "The unit has no further step" (R36, R130, U5). Safe. -/
  | stuck
  /-- Raised by `step` when a RUN unit finds PROG neither 1 nor 2: R117 says this cannot be (log 21). Safe. -/
  | noProgram
deriving DecidableEq, Repr

/-- The reasons a move is refused. -/
inductive Refusal where
  /-- An instruction with no meaning yet; raised by `exec` only. Safe. -/
  | notModelled (mnemonic : String)
  /-- Raised by every move that names a unit u ≥ NUM_UNITS (R125, R142). Safe. -/
  | noSuchUnit
  /-- Raised by a request to a unit that is not IDLE: "the request has no move" (R125, U15). Safe. -/
  | requestUnitBusy
  /-- Raised by a request while PROG is not 1 or 2 (R125, U15). Safe. -/
  | requestNoProgram
  /-- Raised by a request with len > LEN_MAX or a frame not of length len (R135, U16). Safe. -/
  | requestBadFrame
  /-- Raised by LOAD while some unit is not IDLE (R149, U18). Safe. -/
  | loadUnitBusy
  /-- Raised by LOAD(p) with p ∉ {1, 2} (R34, R149, U18). Safe. -/
  | loadBadProgram
  /-- Raised by a monitor read of a record a ≥ ACTION_MAX, which does not exist (R39, R138). Safe. -/
  | monitorNoRecord
deriving DecidableEq, Repr

/-- A cleared record (R149). -/
def Record.zero : Record := ⟨0, 0⟩

/-- A cleared slice (R149). -/
def Slice.zero : Slice := ⟨Record.zero, Record.zero, Record.zero, Record.zero, Record.zero⟩

/-- One unit at power-on (R42, R146): IDLE, every working register, Q, R and tgt unwritten. pc, CT and the invocation inputs have
no stated value: DESIGN CHOICE 0, zero records, and an empty frame (logs 2, 3, 4). -/
def UnitState.powerOn : UnitState where
  st := .idle
  pc := 0
  frame := []
  len := 0
  iif := 0
  pos := none
  endOff := none
  l3 := none
  proto := none
  vdepth := none
  act := none
  cause := none
  tgt := none
  q := none
  r := none
  ct := Slice.zero
  responses := []
  lookupAnswers := []
  devmapAnswers := []
  draws := 0

/-- The core at power-on, for each build: a number of units, LEN_MAX and CFG (R146, R152 step 1). -/
def State.powerOn (numUnits : Nat) (lenMax : Offset) (cfg : BitVec 4) : State where
  cfg := cfg
  lenMax := lenMax
  rom0 := romDropFilter
  rom1 := romForwarder
  prog := 0
  units := List.replicate numUnits UnitState.powerOn
  turn := 0
  agenda := []
  monitorLog := []

/-- The machine right after reset (R146), built with the parameters of Config. -/
def State.reset : State := State.powerOn Config.numUnits Config.lenMax Config.cfg

end Sys2Proof.Machine
end

