-- ==== Sys2Proof/Machine/Ops.lean ====
section
/-! DEFINITION. The shared operations: register reads, the program counter, `resolve` (the core's only exception entry) and
`raise Fault` (00_scope.md R11, R13), the return from an invocation (45_sequencer.md R120, R126), the frame primitives
(20_memory.md R48, R49), the cursor's check (40_cursor.md R78), the Counter Table record access (10_state.md R39), the two service
calls (60_exceptions.md R136, R137), and the fetch (45_sequencer.md R117). -/

namespace Sys2Proof.Machine

/-- A register read (R11): UNWRITTEN while nothing has written it (R32). -/
def readReg {α : Type} (r : Option α) : Except FaultReason α :=
  match r with
  | some v => .ok v
  | none => .error .unwritten

/-- `pc <- (pc + 1) mod 64` (R118). -/
def UnitState.advance (u : UnitState) : UnitState := { u with pc := u.pc + 1 }

/-- `resolve(a, c)`: the entry of every named condition (R119, R129, R133). It saves nothing. -/
def UnitState.resolve (u : UnitState) (a : BitVec 3) (c : BitVec 4) : UnitState :=
  { u with act := some a, cause := some c, pc := finPc }

/-- `raise Fault(f)`: ST ← FAULT with reason f; pc, the registers, F and CT are unchanged (R13, R130). -/
def UnitState.raise (u : UnitState) (f : FaultReason) : UnitState := { u with st := .fault f }

/-- `respond(out, tgt_out, F)` and ST ← IDLE: the return from an invocation (R120, R126). -/
def UnitState.respond (u : UnitState) (out : BitVec 3) (tgt : Option IfId) : UnitState :=
  { u with st := .idle, responses := ⟨out, tgt, u.frame.bytes 0 u.len.toNat⟩ :: u.responses }

/-- `Check(o, n)`: o + n ≤ end, the sum at full precision (R78). -/
def UnitState.check (u : UnitState) (o n : Nat) : Except FaultReason Bool := do
  let e ← readReg u.endOff
  return decide (o + n ≤ e.toNat)

/-- `MemBytes(o, n)` (R48). -/
def UnitState.memBytes (u : UnitState) (o n : Nat) : Except FaultReason (List Byte) := do
  let e ← readReg u.endOff
  if o + n > e.toNat then .error .oobRead else .ok (u.frame.bytes o n)

/-- `MemRead(o, n)` (R48). -/
def UnitState.memRead (u : UnitState) (o n : Nat) : Except FaultReason Nat := do
  let bs ← u.memBytes o n
  return beValue bs

/-- `MemWriteBytes(o, s)` (R49). -/
def UnitState.memWriteBytes (u : UnitState) (o : Nat) (bs : List Byte) : Except FaultReason UnitState := do
  let e ← readReg u.endOff
  if o + bs.length > e.toNat then .error .oobWrite else .ok { u with frame := u.frame.writeBytes o bs }

/-- `MemWrite(o, n, v)` (R49). -/
def UnitState.memWrite (u : UnitState) (o n v : Nat) : Except FaultReason UnitState :=
  u.memWriteBytes o (beBytes n v)

/-- CT[u][a], for a known action (R39). -/
def Slice.get? (c : Slice) (a : Nat) : Option Record :=
  match a with
  | 0 => some c.aborted
  | 1 => some c.drop
  | 2 => some c.pass
  | 3 => some c.tx
  | 4 => some c.redirect
  | _ => none

/-- CT[u][a] ← r, for a known action (R39). -/
def Slice.set (c : Slice) (a : Nat) (r : Record) : Slice :=
  match a with
  | 0 => { c with aborted := r }
  | 1 => { c with drop := r }
  | 2 => { c with pass := r }
  | 3 => { c with tx := r }
  | 4 => { c with redirect := r }
  | _ => c

/-- Add one packet of `len` bytes, mod 2^64 (R120). -/
def Record.add (r : Record) (len : Offset) : Record := ⟨r.pk + 1, r.bys + len.setWidth 64⟩

/-- CT[u][a] gains one packet of `len` bytes (R120). -/
def Slice.count (c : Slice) (a : Nat) (len : Offset) : Slice :=
  match c.get? a with
  | some r => c.set a (r.add len)
  | none => c

/-- One field of a record (R138). -/
def Record.field (r : Record) (f : CounterField) : Counter :=
  match f with
  | .pk => r.pk
  | .bys => r.bys

/-- The answer of `Lookup(Q, ctx)` (R105, R136): the service's next answer, a free draw. -/
def UnitState.lookupAnswer (u : UnitState) (unit : Nat) (q : Query) : LookupResult :=
  match u.lookupAnswers with
  | a :: _ => a
  | [] => Config.lookupAnswer unit u.draws q

/-- What a lookup consumes: the answer that stood ready, or one free value (log 11). -/
def UnitState.lookupAsked (u : UnitState) : UnitState :=
  match u.lookupAnswers with
  | _ :: rest => { u with lookupAnswers := rest }
  | [] => { u with draws := u.draws + 1 }

/-- The answer of `DevmapPresent(oif)` (R137): the device map's next answer, a free draw. -/
def UnitState.devmapPresent (u : UnitState) (unit : Nat) (oif : IfId) : Bool :=
  match u.devmapAnswers with
  | b :: _ => b
  | [] => Config.devmapAnswer unit u.draws oif

/-- What asking the device map consumes: the answer that stood ready, or one free value (log 12). -/
def UnitState.devmapAsked (u : UnitState) : UnitState :=
  match u.devmapAnswers with
  | _ :: rest => { u with devmapAnswers := rest }
  | [] => { u with draws := u.draws + 1 }

/-- Every working register, Q, R and tgt unwritten (R32, R42, R125). -/
def UnitState.unwriteAll (u : UnitState) : UnitState :=
  { u with pos := none, endOff := none, l3 := none, proto := none, vdepth := none, act := none, cause := none,
           tgt := none, q := none, r := none }

/-- The unit whose step it is. -/
def State.cur (s : State) : Option UnitState := s.units[s.turn]?

/-- The core with that unit in another state; nothing else changes. -/
def State.put (s : State) (u : UnitState) : State := { s with units := s.units.set s.turn u }

/-- One micro-operation of the unit whose step it is: its effect, or the entry to FAULT from the state before the
micro-operation, so that a fault leaves no partial effect (R130). -/
def State.onUnit (s : State) (f : UnitState → Except FaultReason UnitState) :
    Host.Outcome State Fault Refusal :=
  match s.cur with
  | none => .refused .noSuchUnit
  | some u =>
    match f u with
    | .ok u' => .next (s.put u')
    | .error r => .next (s.put (u.raise r))

/-- The ROM PROG selects: 1 is ROM 0, 2 is ROM 1 (R34, R117). -/
def State.selectedRom (s : State) : Option (List Word) :=
  if s.prog = 1 then some s.rom0 else if s.prog = 2 then some s.rom1 else none

/-- `w <- ROM[PROG − 1][pc]` (R117). An address a ROM image does not list holds 0x0000 (R66). -/
def State.fetch (s : State) (u : UnitState) : Option Word :=
  (s.selectedRom).map (fun rom => rom.getD u.pc.toNat 0)

/-- The selected ROM with the word at `pc` replaced: a test ROM (95_test_vectors.md L2.8). While PROG selects none, ROM 0 is
selected first. -/
def State.placeWord (s : State) (pc : BitVec 6) (w : Word) : State :=
  if s.prog = 2 then { s with rom1 := (s.rom1 ++ List.replicate (64 - s.rom1.length) 0).set pc.toNat w }
  else { s with prog := 1, rom0 := (s.rom0 ++ List.replicate (64 - s.rom0.length) 0).set pc.toNat w }

end Sys2Proof.Machine
end

