-- ==== Sys2Proof/Machine/Operands.lean ====
section
/-! DEFINITION. The operand forms (30_encoding.md R63): the byte count of format L, the ROM target of format T, and the offsets
and fields of the headers that format-N micro-operations read (30_encoding.md R72 to R76). -/

namespace Sys2Proof.Machine

/-- The byte count n = zext(imm) of format L, added to pos at full precision (R63). -/
def byteCount (n : BitVec 8) : Nat := n.toNat

/-- The offset, within the IPv4 header, of the destination octet rule 1 tests: 16 + k with k = 0 or 3 by CFG[0] (R33, R93). -/
def dstOctetOffset (cfg : BitVec 4) : Nat := 16 + (if cfg.getLsbD 0 then 3 else 0)

/-- CFG[1], L4_OFFSET_MODE: 1 is the fixed 20 (R33, R95). -/
def fixedL4Offset (cfg : BitVec 4) : Bool := cfg.getLsbD 1

/-- CFG[2], CSUM_FOLD: 1 is EAC_GE (R33, R110). -/
def csumFoldGe (cfg : BitVec 4) : Bool := cfg.getLsbD 2

/-- CFG[3], DEVMAP_CHECK (R33, R114). -/
def devmapCheck (cfg : BitVec 4) : Bool := cfg.getLsbD 3

/-- IHL, bits 3:0 of the version/length byte (R74, R95). -/
def ihlOf (versionLength : Nat) : Nat := versionLength % 16

/-- `pos <- v` for an offset sum computed at full precision (R9). A sum of 2^32 or more does not fit the register: the value is
a free value (log 14). -/
def UnitState.setPos (u : UnitState) (unit v : Nat) : UnitState :=
  if v < 2 ^ 32 then { u with pos := some (BitVec.ofNat 32 v) }
  else { u with pos := some (Config.offsetOver unit u.draws), draws := u.draws + 1 }

/-- `vdepth <- vdepth + 1` (R86). From 3 the sum does not fit the register: the value is a free value (log 15). -/
def UnitState.incVdepth (u : UnitState) (unit : Nat) (d : BitVec 2) : UnitState :=
  if d = 3 then { u with vdepth := some (Config.depthOver unit u.draws), draws := u.draws + 1 }
  else { u with vdepth := some (d + 1) }

/-- The byte h − 1 of a hop count h (R111, R112). From 0 the difference is no byte: the value is a free value (log 13). -/
def UnitState.hopDecremented (u : UnitState) (unit h : Nat) : Nat :=
  if h = 0 then (Config.hopOfZero unit u.draws).toNat else h - 1

/-- What `hopDecremented` consumes: one free value where the hop count is 0 (log 13). -/
def UnitState.hopAsked (u : UnitState) (h : Nat) : UnitState :=
  if h = 0 then { u with draws := u.draws + 1 } else u

end Sys2Proof.Machine
end

