-- ==== Sys2Proof/Machine/Flags.lean ====
section
/-! DEFINITION. The core has no flags, condition codes or predicate registers (10_state.md R27). This file holds what takes their
place: the conditions the conditional micro-operations evaluate and act on in one step, and the one carry computation,
CsumTTL (44_rewrite.md R110). -/

namespace Sys2Proof.Machine

/-- The protocol id names a VLAN tag, 802.1Q or 802.1ad (R86). -/
def isVlanTpid (proto : BitVec 16) : Bool := proto == et8021q || proto == et8021ad

/-- Rule 1: the tested octet is 0 or 255 (R93). -/
def isNetOrBroadcastOctet (octet : Nat) : Bool := octet == 0x00 || octet == 0xFF

/-- Rule 2: the more-fragments flag, bit 13, or a non-zero 13-bit fragment offset (R94). -/
def isFragment (ff : Nat) : Bool := ff.testBit 13 || ff % 2 ^ 13 != 0

/-- Rule 3: one of the two ports is 53 (R97). -/
def isDnsPort (sp dp : Nat) : Bool := sp == dnsPort || dp == dnsPort

/-- The hop-count guard: hop count ≤ 1 (R101, R103). -/
def isHopExhausted (hop : Nat) : Bool := decide (hop ≤ hopGuard)

/-- What FDISP does with a result code (R71, R106). -/
inductive LookupClass where
  /-- rc 0 -/
  | success
  /-- rc 1, 2, 3 -/
  | hard
  /-- rc 4 .. 8, and the reserved 9 .. 15 -/
  | soft
deriving DecidableEq, Repr

/-- The class of a result code (R71, R106). -/
def lookupClass (rc : BitVec 4) : LookupClass :=
  if rc = 0 then .success
  else if rc = 1 ∨ rc = 2 ∨ rc = 3 then .hard
  else .soft

/-- `CsumTTL(c)`: the IPv4 header checksum after a TTL decrement (R110). -/
def csumTtl (cfg : BitVec 4) (c : Nat) : Nat :=
  let s := c + 0x0100
  if csumFoldGe cfg then (s + (if s ≥ 0xFFFF then 1 else 0)) % 2 ^ 16
  else s % 2 ^ 16 + s / 2 ^ 16

end Sys2Proof.Machine
end

