-- ==== Sys2Proof/Machine/Classifier.lean ====
section
/-! DEFINITION. The Drop Classifier micro-operations C4DST, C4FRAG, C4L4, C6L4, CUDP (42_classifier.md R93 to R97). -/

namespace Sys2Proof.Machine

/-- C4DST, rule 1 (R93). -/
def c4dst (cfg : BitVec 4) (u : UnitState) : Except FaultReason UnitState := do
  let l3 ← readReg u.l3
  let octet ← u.memRead (l3.toNat + dstOctetOffset cfg) 1
  if isNetOrBroadcastOctet octet then return u.resolve actDrop causeDstOct
  else return u.advance

/-- C4DST on the unit whose step it is (R93). -/
def execC4dst (s : State) : Host.Outcome State Fault Refusal := s.onUnit (c4dst s.cfg)

/-- C4FRAG, rule 2 (R94). -/
def c4frag (u : UnitState) : Except FaultReason UnitState := do
  let l3 ← readReg u.l3
  let ff ← u.memRead (l3.toNat + 6) 2
  if isFragment ff then return u.resolve actDrop causeFrag
  else return u.advance

/-- C4FRAG on the unit whose step it is (R94). -/
def execC4frag (s : State) : Host.Outcome State Fault Refusal := s.onUnit c4frag

/-- C4L4, rule 3's first half for IPv4 (R95). -/
def c4l4 (cfg : BitVec 4) (unit : Nat) (u : UnitState) : Except FaultReason UnitState := do
  let l3 ← readReg u.l3
  let protocol ← u.memRead (l3.toNat + 9) 1
  if protocol ≠ ipprotoUdp then return u.resolve actPass causeDefault
  else if fixedL4Offset cfg then return (u.setPos unit (l3.toNat + ipv4HdrBytes)).advance
  else
    let vl ← u.memRead l3.toNat 1
    if ihlOf vl < 5 then return u.resolve actPass causeBadIhl
    else return (u.setPos unit (l3.toNat + 4 * ihlOf vl)).advance

/-- C4L4 on the unit whose step it is (R95). -/
def execC4l4 (s : State) : Host.Outcome State Fault Refusal := s.onUnit (c4l4 s.cfg s.turn)

/-- C6L4, rule 3's first half for IPv6 (R96). -/
def c6l4 (u : UnitState) : Except FaultReason UnitState := do
  let l3 ← readReg u.l3
  let nextHeader ← u.memRead (l3.toNat + 6) 1
  if nextHeader ≠ ipprotoUdp then return u.resolve actPass causeDefault
  else return u.advance

/-- C6L4 on the unit whose step it is (R96). -/
def execC6l4 (s : State) : Host.Outcome State Fault Refusal := s.onUnit c6l4

/-- CUDP, rule 3's second half and rule 4 (R97). -/
def cudp (u : UnitState) : Except FaultReason UnitState := do
  let p ← readReg u.pos
  let sp ← u.memRead p.toNat 2
  let dp ← u.memRead (p.toNat + 2) 2
  if isDnsPort sp dp then return u.resolve actDrop causeDns
  else return u.resolve actPass causeDefault

/-- CUDP on the unit whose step it is (R97). -/
def execCudp (s : State) : Host.Outcome State Fault Refusal := s.onUnit cudp

end Sys2Proof.Machine
end

