-- ==== Sys2Proof/Machine/Cursor.lean ====
section
/-! DEFINITION. The Packet Cursor micro-operations CINIT, CHK, ADV (40_cursor.md R79 to R81). -/

namespace Sys2Proof.Machine

/-- CINIT (R79). -/
def cinit (u : UnitState) : Except FaultReason UnitState :=
  .ok { u with pos := some 0, endOff := some u.len, l3 := some 0, proto := some 0, vdepth := some 0,
               act := some actPass, cause := some causeNone }.advance

/-- CINIT on the unit whose step it is (R79). -/
def execCinit (s : State) : Host.Outcome State Fault Refusal := s.onUnit cinit

/-- CHK n (R80). -/
def chk (n : BitVec 8) (u : UnitState) : Except FaultReason UnitState := do
  let p ← readReg u.pos
  if ← u.check p.toNat (byteCount n) then return u.advance
  else return u.resolve actPass causeTrunc

/-- CHK n on the unit whose step it is (R80). -/
def execChk (n : BitVec 8) (s : State) : Host.Outcome State Fault Refusal := s.onUnit (chk n)

/-- ADV n (R81). -/
def adv (n : BitVec 8) (u : UnitState) : Except FaultReason UnitState := do
  let p ← readReg u.pos
  if ← u.check p.toNat (byteCount n) then
    return { u with pos := some (BitVec.ofNat 32 (p.toNat + byteCount n)) }.advance
  else return u.resolve actPass causeTrunc

/-- ADV n on the unit whose step it is (R81). -/
def execAdv (n : BitVec 8) (s : State) : Host.Outcome State Fault Refusal := s.onUnit (adv n)

end Sys2Proof.Machine
end

