-- ==== Sys2Proof/Machine/Forwarder.lean ====
section
/-! DEFINITION. The Forwarding Engine micro-operations TTL4, Q4, TTL6, Q6, FIB, FDISP (43_forwarder.md R101 to R106). -/

namespace Sys2Proof.Machine

/-- The hop-count guard on the byte at l3 + k (R101, R103). -/
def hopGuardAt (k : Nat) (u : UnitState) : Except FaultReason UnitState := do
  let l3 ← readReg u.l3
  let hop ← u.memRead (l3.toNat + k) 1
  if isHopExhausted hop then return u.resolve actPass causeTtlGuard
  else return u.advance

/-- TTL4 on the unit whose step it is (R101). -/
def execTtl4 (s : State) : Host.Outcome State Fault Refusal := s.onUnit (hopGuardAt 8)

/-- Q4 (R102). -/
def q4 (u : UnitState) : Except FaultReason UnitState := do
  let l3 ← readReg u.l3
  let tos ← u.memRead (l3.toNat + 1) 1
  let tlen ← u.memRead (l3.toNat + 2) 2
  let l4p ← u.memRead (l3.toNat + 9) 1
  let src ← u.memBytes (l3.toNat + 12) 4
  let dst ← u.memBytes (l3.toNat + 16) 4
  return { u with q := some { family := .ipv4, tos := BitVec.ofNat 32 tos, l4p := BitVec.ofNat 8 l4p,
                              tlen := BitVec.ofNat 16 tlen, src := src, dst := dst, iif := u.iif } }.advance

/-- Q4 on the unit whose step it is (R102). -/
def execQ4 (s : State) : Host.Outcome State Fault Refusal := s.onUnit q4

/-- TTL6 on the unit whose step it is (R103). -/
def execTtl6 (s : State) : Host.Outcome State Fault Refusal := s.onUnit (hopGuardAt 7)

/-- Q6 (R104). -/
def q6 (u : UnitState) : Except FaultReason UnitState := do
  let l3 ← readReg u.l3
  let first ← u.memRead l3.toNat 4
  let tlen ← u.memRead (l3.toNat + 4) 2
  let l4p ← u.memRead (l3.toNat + 6) 1
  let src ← u.memBytes (l3.toNat + 8) 16
  let dst ← u.memBytes (l3.toNat + 24) 16
  return { u with q := some { family := .ipv6, tos := BitVec.ofNat 32 first &&& flowinfoMask, l4p := BitVec.ofNat 8 l4p,
                              tlen := BitVec.ofNat 16 tlen, src := src, dst := dst, iif := u.iif } }.advance

/-- Q6 on the unit whose step it is (R104). -/
def execQ6 (s : State) : Host.Outcome State Fault Refusal := s.onUnit q6

/-- FIB (R105). -/
def fib (unit : Nat) (u : UnitState) : Except FaultReason UnitState := do
  let q ← readReg u.q
  return { u.lookupAsked with r := some (u.lookupAnswer unit q) }.advance

/-- FIB on the unit whose step it is (R105). -/
def execFib (s : State) : Host.Outcome State Fault Refusal := s.onUnit (fib s.turn)

/-- FDISP (R106). -/
def fdisp (u : UnitState) : Except FaultReason UnitState := do
  let r ← readReg u.r
  match lookupClass r.rc with
  | .success => return u.advance
  | .hard => return u.resolve actDrop causeHard
  | .soft => return u.resolve actPass causeSoft

/-- FDISP on the unit whose step it is (R106). -/
def execFdisp (s : State) : Host.Outcome State Fault Refusal := s.onUnit fdisp

end Sys2Proof.Machine
end

