-- ==== Sys2Proof/Machine/Rewrite.lean ====
section
/-! DEFINITION. The rewrite micro-operations DEC4, DEC6, L2RW, REDIR (44_rewrite.md R111 to R114). -/

namespace Sys2Proof.Machine

/-- DEC4 (R111). -/
def dec4 (cfg : BitVec 4) (unit : Nat) (u : UnitState) : Except FaultReason UnitState := do
  let l3 ← readReg u.l3
  let ttl ← u.memRead (l3.toNat + 8) 1
  let c ← u.memRead (l3.toNat + 10) 2
  let u1 ← (u.hopAsked ttl).memWrite (l3.toNat + 8) 1 (u.hopDecremented unit ttl)
  let u2 ← u1.memWrite (l3.toNat + 10) 2 (csumTtl cfg c)
  return u2.advance

/-- DEC4 on the unit whose step it is (R111). -/
def execDec4 (s : State) : Host.Outcome State Fault Refusal := s.onUnit (dec4 s.cfg s.turn)

/-- DEC6 (R112). -/
def dec6 (unit : Nat) (u : UnitState) : Except FaultReason UnitState := do
  let l3 ← readReg u.l3
  let h ← u.memRead (l3.toNat + 7) 1
  let u1 ← (u.hopAsked h).memWrite (l3.toNat + 7) 1 (u.hopDecremented unit h)
  return u1.advance

/-- DEC6 on the unit whose step it is (R112). -/
def execDec6 (s : State) : Host.Outcome State Fault Refusal := s.onUnit (dec6 s.turn)

/-- L2RW (R113): the byte string of a MAC is its 6-byte big-endian encoding. -/
def l2rw (u : UnitState) : Except FaultReason UnitState := do
  let r ← readReg u.r
  let u1 ← u.memWriteBytes 0 (beBytes 6 r.dmac.toNat)
  let u2 ← u1.memWriteBytes 6 (beBytes 6 r.smac.toNat)
  return u2.advance

/-- L2RW on the unit whose step it is (R113). -/
def execL2rw (s : State) : Host.Outcome State Fault Refusal := s.onUnit l2rw

/-- `tgt <- R.oif ; resolve(REDIRECT, FORWARDED)` (R114). -/
def UnitState.redirectTo (u : UnitState) (oif : IfId) : UnitState :=
  { u with tgt := some oif }.resolve actRedirect causeForwarded

/-- REDIR (R114). -/
def redir (cfg : BitVec 4) (unit : Nat) (u : UnitState) : Except FaultReason UnitState := do
  let r ← readReg u.r
  if devmapCheck cfg then
    if u.devmapPresent unit r.oif then return u.devmapAsked.redirectTo r.oif
    else return u.devmapAsked.resolve actAborted causeDevmapMiss
  else return u.redirectTo r.oif

/-- REDIR on the unit whose step it is (R114). -/
def execRedir (s : State) : Host.Outcome State Fault Refusal := s.onUnit (redir s.cfg s.turn)

end Sys2Proof.Machine
end

