-- ==== Sys2Proof/Machine/Sequencer.lean ====
section
/-! DEFINITION. FIN, the finalize micro-operation, and ILL, the illegal one (45_sequencer.md R120, R121). -/

namespace Sys2Proof.Machine

/-- `(out = REDIRECT) ? tgt : none`, a register read when the target is output (R120, R126). -/
def UnitState.targetOut (u : UnitState) (out : BitVec 3) : Except FaultReason (Option IfId) := do
  if out = actRedirect then
    let t ← readReg u.tgt
    return some t
  else return none

/-- FIN (R120). -/
def fin (u : UnitState) : Except FaultReason UnitState := do
  let a ← readReg u.act
  if a.toNat ≥ actionMax then
    return { u with cause := some causeBadact }.respond actAborted none
  else
    let e ← readReg u.endOff
    let tgt ← u.targetOut a
    return { u with ct := u.ct.count a.toNat e }.respond a tgt

/-- FIN on the unit whose step it is (R120). -/
def execFin (s : State) : Host.Outcome State Fault Refusal := s.onUnit fin

/-- ILL: `raise Fault(ILLEGAL)` (R121). -/
def ill (_u : UnitState) : Except FaultReason UnitState := .error .illegal

/-- ILL on the unit whose step it is (R121). -/
def execIll (s : State) : Host.Outcome State Fault Refusal := s.onUnit ill

end Sys2Proof.Machine
end

