-- ==== Sys2Proof/Machine/Walker.lean ====
section
/-! DEFINITION. The Header Walker micro-operations ETH, VLAN, JP4, JP6, UNSUP (41_walker.md R85 to R89). -/

namespace Sys2Proof.Machine

/-- ETH (R85). -/
def eth (u : UnitState) : Except FaultReason UnitState := do
  let p ← readReg u.pos
  if ← u.check p.toNat ethHdrBytes then
    let v ← u.memRead (p.toNat + 12) 2
    return { u with proto := some (BitVec.ofNat 16 v), pos := some (BitVec.ofNat 32 (p.toNat + ethHdrBytes)) }.advance
  else return u.resolve actPass causeTrunc

/-- ETH on the unit whose step it is (R85). -/
def execEth (s : State) : Host.Outcome State Fault Refusal := s.onUnit eth

/-- VLAN (R86). -/
def vlan (unit : Nat) (u : UnitState) : Except FaultReason UnitState := do
  let proto ← readReg u.proto
  if isVlanTpid proto then
    let p ← readReg u.pos
    if ← u.check p.toNat vlanTagBytes then
      let v ← u.memRead (p.toNat + 2) 2
      let d ← readReg u.vdepth
      return ({ u with proto := some (BitVec.ofNat 16 v),
                       pos := some (BitVec.ofNat 32 (p.toNat + vlanTagBytes)) }.incVdepth unit d).advance
    else return u.resolve actPass causeTrunc
  else return u.advance

/-- VLAN on the unit whose step it is (R86). -/
def execVlan (s : State) : Host.Outcome State Fault Refusal := s.onUnit (vlan s.turn)

/-- The branch of JP4 and JP6: `l3 <- pos ; pc <- t` if the protocol is `proto` (R87, R88). -/
def branchOnProto (wanted : BitVec 16) (t : BitVec 6) (u : UnitState) : Except FaultReason UnitState := do
  let proto ← readReg u.proto
  if proto = wanted then
    let p ← readReg u.pos
    return { u with l3 := some p, pc := t }
  else return u.advance

/-- JP4 t on the unit whose step it is (R87). -/
def execJp4 (t : BitVec 6) (s : State) : Host.Outcome State Fault Refusal := s.onUnit (branchOnProto etIpv4 t)

/-- JP6 t on the unit whose step it is (R88). -/
def execJp6 (t : BitVec 6) (s : State) : Host.Outcome State Fault Refusal := s.onUnit (branchOnProto etIpv6 t)

/-- UNSUP (R89). -/
def unsup (u : UnitState) : Except FaultReason UnitState := .ok (u.resolve actPass causeUnsup)

/-- UNSUP on the unit whose step it is (R89). -/
def execUnsup (s : State) : Host.Outcome State Fault Refusal := s.onUnit unsup

end Sys2Proof.Machine
end

