-- ==== Sys2Proof/Machine/Dispatch.lean ====
section
/-! DEFINITION. One arm per micro-operation: the meaning each calls (30_encoding.md R64). -/

namespace Sys2Proof.Machine

def exec (i : Instr) (s : State) : Host.Outcome State Fault Refusal :=
  match i with
  | .ill => Sys2Proof.Machine.execIll s
  | .cinit => Sys2Proof.Machine.execCinit s
  | .chk n => Sys2Proof.Machine.execChk n s
  | .adv n => Sys2Proof.Machine.execAdv n s
  | .eth => Sys2Proof.Machine.execEth s
  | .vlan => Sys2Proof.Machine.execVlan s
  | .jp4 t => Sys2Proof.Machine.execJp4 t s
  | .jp6 t => Sys2Proof.Machine.execJp6 t s
  | .unsup => Sys2Proof.Machine.execUnsup s
  | .c4dst => Sys2Proof.Machine.execC4dst s
  | .c4frag => Sys2Proof.Machine.execC4frag s
  | .c4l4 => Sys2Proof.Machine.execC4l4 s
  | .c6l4 => Sys2Proof.Machine.execC6l4 s
  | .cudp => Sys2Proof.Machine.execCudp s
  | .ttl4 => Sys2Proof.Machine.execTtl4 s
  | .q4 => Sys2Proof.Machine.execQ4 s
  | .ttl6 => Sys2Proof.Machine.execTtl6 s
  | .q6 => Sys2Proof.Machine.execQ6 s
  | .fib => Sys2Proof.Machine.execFib s
  | .fdisp => Sys2Proof.Machine.execFdisp s
  | .dec4 => Sys2Proof.Machine.execDec4 s
  | .dec6 => Sys2Proof.Machine.execDec6 s
  | .l2rw => Sys2Proof.Machine.execL2rw s
  | .redir => Sys2Proof.Machine.execRedir s
  | .fin => Sys2Proof.Machine.execFin s

end Sys2Proof.Machine
end

