-- ==== Sys2Proof/Machine/Ports.lean ====
section
/-! DEFINITION. The moves of the other agents: the host's request (45_sequencer.md R125), the control plane's LOAD
(70_reset_and_hazards.md R149) and the monitor's read (20_memory.md R56, 60_exceptions.md R138). -/

namespace Sys2Proof.Machine

/-- Invocation start on a unit: latch F, len, iif; every working register and Q, R, tgt unwritten; pc ← 0; ST ← RUN (R125). -/
def UnitState.start (u : UnitState) (r : Request) : UnitState :=
  { u.unwriteAll with frame := Memory.ofBytes r.bytes, len := r.len, iif := r.iif, pc := 0, st := .run }

/-- A request of the host (R125, R135). Where it has no move the model refuses it by name (U15, U16; log 9). -/
def State.submit (s : State) (r : Request) : Host.Outcome State Fault Refusal :=
  match s.units[r.unit]? with
  | none => .refused .noSuchUnit
  | some u =>
    if s.lenMax.toNat < r.len.toNat ∨ r.bytes.length ≠ r.len.toNat then .refused .requestBadFrame
    else if s.prog ≠ 1 ∧ s.prog ≠ 2 then .refused .requestNoProgram
    else if u.st ≠ .idle then .refused .requestUnitBusy
    else .next { s with units := s.units.set r.unit (u.start r), turn := r.unit }

/-- What LOAD does to a unit: its Counter Table slice is zeroed (R149), and its registers and inputs are as R42's LOAD column
lists them. The responses kept for the Counter Table's account start anew (log 17). -/
def UnitState.load (u : UnitState) : UnitState :=
  { u.unwriteAll with ct := Slice.zero, responses := [], frame := [], len := 0, iif := 0 }

/-- LOAD(p) (R149). Where it has no move the model refuses it by name (U18; log 9). -/
def State.load (s : State) (p : BitVec 2) : Host.Outcome State Fault Refusal :=
  if p ≠ 1 ∧ p ≠ 2 then .refused .loadBadProgram
  else if s.units.all (fun u => decide (u.st = .idle)) then
    .next { s with prog := p, units := s.units.map UnitState.load }
  else .refused .loadUnitBusy

/-- A monitor read of CT[u][a].f: the value the field holds at this step (R56, R138). -/
def State.monitorRead (s : State) (u a : Nat) (f : CounterField) : Host.Outcome State Fault Refusal :=
  match s.units[u]? with
  | none => .refused .noSuchUnit
  | some x =>
    match x.ct.get? a with
    | none => .refused .monitorNoRecord
    | some r => .next { s with monitorLog := ⟨u, a, f, r.field f⟩ :: s.monitorLog }

end Sys2Proof.Machine
end

