-- ==== Sys2Proof/Machine/Step.lean ====
section
/-! DEFINITION. One step of the core: one move of one agent (10_state.md R20, 45_sequencer.md R116). -/

namespace Sys2Proof.Machine

/-- One step of the unit whose turn it is: in RUN, fetch, decode, execute (R116, R117); in IDLE, wait with no state change
(R145); in FAULT, no further step (R130). -/
def unitStep (s : State) : Host.Outcome State Fault Refusal :=
  match s.cur with
  | none => .refused .noSuchUnit
  | some u =>
    match u.st with
    | .idle => .next s
    | .fault _ => .fault .stuck
    | .run =>
      match s.fetch u with
      | none => .fault .noProgram
      | some w => exec (decode w) s

/-- One move taken from the agenda. -/
def perform (m : Move) (s : State) : Host.Outcome State Fault Refusal :=
  match m with
  | .unitStep u => unitStep { s with turn := u }
  | .request r => s.submit r
  | .load p => s.load p
  | .monitor u a f => s.monitorRead u a f

/-- One step of the core: the next move of the agenda, or the unit whose turn it is (log 8). -/
def step (s : State) : Host.Outcome State Fault Refusal :=
  match s.agenda with
  | [] => unitStep s
  | m :: rest => perform m { s with agenda := rest }

/-- `s` with the word `w` where the unit whose turn it is fetches next, that unit in RUN and next to move (log 19). -/
def State.withFetchWord (s : State) (nbits w : Nat) : State :=
  match s.cur with
  | none => s
  | some u =>
    { (s.placeWord u.pc (BitVec.ofNat 16 (w % 2 ^ nbits))).put { u with st := .run } with
      agenda := Move.unitStep s.turn :: s.agenda }

end Sys2Proof.Machine
end

