-- ==== Sys2Proof/Safety.lean ====
section
/-! DEFINITION. What claims about runs are stated in: the invariant of every step, the invariant of the two ROMs that rules out
every fault, and the spec's closed forms of the two programs. None of it is used by the machine. -/

namespace Sys2Proof.Safety

open Sys2Proof Sys2Proof.Machine

/-! ### The invariant of every step, whatever the ROMs hold -/

/-- The responses with action `a`. -/
def answered (u : UnitState) (a : BitVec 3) : List Response := u.responses.filter (fun r => r.out == a)

/-- A record holds the number of responses with its action and the sum of their lengths, mod 2^64 (R128). -/
def recordCounts (u : UnitState) (a : BitVec 3) (r : Record) : Prop :=
  r.pk = BitVec.ofNat 64 (answered u a).length ∧
  r.bys = BitVec.ofNat 64 ((answered u a).map (fun x => x.bytes.length)).sum

/-- R128: every record counts its action's responses, and the record of the reserved action 3 is zero. -/
def countersMatch (u : UnitState) : Prop :=
  recordCounts u 0 u.ct.aborted ∧ recordCounts u 1 u.ct.drop ∧ recordCounts u 2 u.ct.pass ∧
  recordCounts u 4 u.ct.redirect ∧ u.ct.tx = Record.zero

/-- The action codes some rule produces: ABORTED, DROP, PASS, REDIRECT (R69, R148 (e)). -/
def producedAction (a : BitVec 3) : Prop := a = 0 ∨ a = 1 ∨ a = 2 ∨ a = 4

/-- What holds of every unit: its frame is in canonical form, `end` is `len` once written (R25), and act holds a produced
action once written (R30). -/
def unitOk (u : UnitState) : Prop :=
  u.frame.wf = true ∧ (∀ e, u.endOff = some e → e = u.len) ∧ (∀ a, u.act = some a → producedAction a)

/-- The invariant: PROG is a legal value (R34), a RUN unit has a program (R117), every unit is as `unitOk` says, and with a
program attached the Counter Table keeps the account of R128. -/
def Inv (s : State) : Prop :=
  s.prog ≠ 3 ∧
  ∀ u ∈ s.units, unitOk u ∧ (u.st = .run → s.prog ≠ 0) ∧ (s.prog ≠ 0 → countersMatch u)

/-! ### The invariant of ROM 0 and ROM 1 (70_reset_and_hazards.md R148) -/

/-- CINIT has run: every working register but tgt, Q and R is written, and `end` is the frame length (R148 (c)). -/
def initialised (u : UnitState) : Prop :=
  u.endOff = some u.len ∧ u.pos.isSome = true ∧ u.l3.isSome = true ∧ u.proto.isSome = true ∧
  u.vdepth.isSome = true ∧ u.act.isSome = true ∧ u.cause.isSome = true

/-- The n bytes at l3 lie in the frame: what CHK 20 or CHK 40 at pos = l3 established (R148 (b)). -/
def l3Covered (u : UnitState) (n : Nat) : Prop := ∃ l, u.l3 = some l ∧ l.toNat + n ≤ u.len.toNat

/-- The n bytes at pos lie in the frame: what CHK n established (R148 (b)). -/
def posCovered (u : UnitState) (n : Nat) : Prop := ∃ p, u.pos = some p ∧ p.toNat + n ≤ u.len.toNat

/-- What FIN needs at 0x3F (R148 (c), (e)). -/
def finReady (u : UnitState) : Prop :=
  u.endOff = some u.len ∧ ∃ a, u.act = some a ∧ producedAction a ∧ (a = 4 → u.tgt.isSome = true)

/-- What the checks on the path have established before the word at `pc`, in the walk both ROMs share. -/
def walkCovered (pc : Nat) (u : UnitState) : Prop :=
  match pc with
  | 0x00 => True
  | 0x01 => initialised u
  | 0x02 | 0x03 | 0x04 | 0x05 | 0x06 => initialised u ∧ 14 ≤ u.len.toNat
  | 0x07 => initialised u ∧ 14 ≤ u.len.toNat ∧ u.l3 = u.pos
  | 0x3F => finReady u
  | _ => False

/-- The same for all of ROM 0 (R122). -/
def rom0Covered (pc : Nat) (u : UnitState) : Prop :=
  match pc with
  | 0x08 | 0x09 | 0x0A => initialised u ∧ l3Covered u 20
  | 0x0B | 0x10 => initialised u
  | 0x0C | 0x11 => initialised u ∧ posCovered u 8
  | 0x0D => initialised u ∧ u.l3 = u.pos
  | 0x0E => initialised u ∧ l3Covered u 40
  | 0x0F => initialised u
  | pc => walkCovered pc u

/-- The same for all of ROM 1 (R123). -/
def rom1Covered (pc : Nat) (u : UnitState) : Prop :=
  match pc with
  | 0x08 | 0x09 => initialised u ∧ 14 ≤ u.len.toNat ∧ l3Covered u 20
  | 0x0A => initialised u ∧ 14 ≤ u.len.toNat ∧ l3Covered u 20 ∧ u.q.isSome = true
  | 0x0B | 0x0C => initialised u ∧ 14 ≤ u.len.toNat ∧ l3Covered u 20 ∧ u.r.isSome = true
  | 0x0D | 0x0E | 0x15 | 0x16 => initialised u ∧ 14 ≤ u.len.toNat ∧ u.r.isSome = true
  | 0x0F => initialised u ∧ 14 ≤ u.len.toNat ∧ u.l3 = u.pos
  | 0x10 | 0x11 => initialised u ∧ 14 ≤ u.len.toNat ∧ l3Covered u 40
  | 0x12 => initialised u ∧ 14 ≤ u.len.toNat ∧ l3Covered u 40 ∧ u.q.isSome = true
  | 0x13 | 0x14 => initialised u ∧ 14 ≤ u.len.toNat ∧ l3Covered u 40 ∧ u.r.isSome = true
  | pc => walkCovered pc u

/-- A unit that is not in FAULT, and whose path so far covers what the rest of its ROM reads (R148). -/
def romUnitOk (prog : BitVec 2) (u : UnitState) : Prop :=
  (∀ f, u.st ≠ .fault f) ∧
  (u.st = .run → (prog = 1 ∧ rom0Covered u.pc.toNat u) ∨ (prog = 2 ∧ rom1Covered u.pc.toNat u))

/-- The hardware's own ROMs, a legal PROG, and every unit on a covered path. -/
def RomInv (s : State) : Prop :=
  s.rom0 = romDropFilter ∧ s.rom1 = romForwarder ∧ s.prog ≠ 3 ∧ ∀ u ∈ s.units, romUnitOk s.prog u

/-! ### The closed forms -/

/-- F[i] of a frame given as a byte string (R10). -/
def byteAt (f : List Byte) (i : Nat) : Nat := (f.getD i 0).toNat

/-- The 16-bit field at i (R43, R44). -/
def fieldAt (f : List Byte) (i : Nat) : Nat := byteAt f i * 256 + byteAt f (i + 1)

/-- The walk's result (R90): (proto, pos), or nothing where the walk resolves PASS/TRUNC. -/
def walk (f : List Byte) : Option (Nat × Nat) :=
  let isTag := fun e => e = 0x8100 ∨ e = 0x88A8
  if f.length < 14 then none
  else if ¬ isTag (fieldAt f 12) then some (fieldAt f 12, 14)
  else if f.length < 18 then none
  else if ¬ isTag (fieldAt f 16) then some (fieldAt f 16, 18)
  else if f.length < 22 then none
  else some (fieldAt f 20, 22)

/-- "port 53 at p" (R98). -/
def dnsAt (f : List Byte) (p : Nat) : Prop := fieldAt f p = 53 ∨ fieldAt f (p + 2) = 53

/-- R98's verdict of ROM 0 on a frame: DROP or not. -/
def dropFilterDrops (cfg : BitVec 4) (f : List Byte) : Prop :=
  match walk f with
  | none => False
  | some (proto, l3) =>
    if proto = 0x0800 then
      l3 + 20 ≤ f.length ∧
      ((byteAt f (l3 + 16 + 3 * (cfg.getLsbD 0).toNat) = 0 ∨ byteAt f (l3 + 16 + 3 * (cfg.getLsbD 0).toNat) = 255) ∨
       (byteAt f (l3 + 6) / 32 % 2 = 1 ∨ fieldAt f (l3 + 6) % 8192 ≠ 0) ∨
       (byteAt f (l3 + 9) = 17 ∧
        let ihl := byteAt f l3 % 16
        let p := if cfg.getLsbD 1 then l3 + 20 else l3 + 4 * ihl
        (cfg.getLsbD 1 = true ∨ 5 ≤ ihl) ∧ p + 8 ≤ f.length ∧ dnsAt f p))
    else if proto = 0x86DD then
      l3 + 48 ≤ f.length ∧ byteAt f (l3 + 6) = 17 ∧ dnsAt f (l3 + 40)
    else False

/-- The forwarder reaches its lookup on a frame: the family and l3, where the header is whole and the hop count above 1
(R100, R101, R103). -/
def forwarderLooksUp (f : List Byte) : Option (Family × Nat) :=
  match walk f with
  | none => none
  | some (proto, l3) =>
    if proto = 0x0800 then
      if l3 + 20 ≤ f.length ∧ 1 < byteAt f (l3 + 8) then some (.ipv4, l3) else none
    else if proto = 0x86DD then
      if l3 + 40 ≤ f.length ∧ 1 < byteAt f (l3 + 7) then some (.ipv6, l3) else none
    else none

/-- n bytes of a frame from offset o. -/
def slice (f : List Byte) (o n : Nat) : List Byte := (f.drop o).take n

/-- The query of R102 or R104 on a frame. -/
def queryOf (f : List Byte) (fam : Family) (l3 : Nat) (iif : IfId) : Query :=
  match fam with
  | .ipv4 =>
    { family := .ipv4, tos := BitVec.ofNat 32 (byteAt f (l3 + 1)), tlen := BitVec.ofNat 16 (fieldAt f (l3 + 2)),
      l4p := BitVec.ofNat 8 (byteAt f (l3 + 9)), src := slice f (l3 + 12) 4, dst := slice f (l3 + 16) 4, iif := iif }
  | .ipv6 =>
    { family := .ipv6, tos := BitVec.ofNat 32 ((fieldAt f l3 * 65536 + fieldAt f (l3 + 2)) % 2 ^ 28),
      tlen := BitVec.ofNat 16 (fieldAt f (l3 + 4)), l4p := BitVec.ofNat 8 (byteAt f (l3 + 6)),
      src := slice f (l3 + 8) 16, dst := slice f (l3 + 24) 16, iif := iif }

/-- The byte at i of the frame a successful forward leaves (R110 to R113, R115). -/
def forwardedByte (cfg : BitVec 4) (f : List Byte) (fam : Family) (l3 : Nat) (a : LookupResult) (i : Nat) : Nat :=
  if i < 6 then a.dmac.toNat / 256 ^ (5 - i) % 256
  else if i < 12 then a.smac.toNat / 256 ^ (11 - i) % 256
  else match fam with
    | .ipv4 =>
      if i = l3 + 8 then byteAt f i - 1
      else if i = l3 + 10 then csumTtl cfg (fieldAt f (l3 + 10)) / 256
      else if i = l3 + 11 then csumTtl cfg (fieldAt f (l3 + 10)) % 256
      else byteAt f i
    | .ipv6 => if i = l3 + 7 then byteAt f i - 1 else byteAt f i

/-- One's-complement sum of 16-bit words whose plain sum is n: end-around carries folded in (R110, R115). -/
def onesSum (n : Nat) : Nat := if n = 0 then 0 else (n - 1) % 65535 + 1

/-- The plain sum of the ten 16-bit words of the 20-byte header at l3 (R115). -/
def headerSum (m : Memory) (l3 : Nat) : Nat :=
  ((List.range 10).map (fun k => (m.read (l3 + 2 * k)).toNat * 256 + (m.read (l3 + 2 * k + 1)).toNat)).sum

end Sys2Proof.Safety
end

