-- ==== Sys2Proof/Certificates/Slice0/Obligations.lean ====
section
/-! DEFINITION. The statements for the provers, each from the numbered rules of spec/. -/

open Sys2Proof Sys2Proof.Machine

/-- For every micro-operation i, with every operand at every value its type admits, decode (encode i) = i. Every term of Instr is well formed, so nothing is shut out.
(Rests on 30_encoding.md R64, 30_encoding.md R68.) -/
def Obligations.DecodeOfEncode : Prop :=
  ∀ i : Instr, decode (encode i) = i

/-- For every 16-bit word w that the list of R66 does not call illegal, decode w is not ILL and encode (decode w) = w, so no bit of a legal word is dropped.
(Rests on 30_encoding.md R62, 30_encoding.md R64, 92_eei_decisions.md D49.) -/
def Obligations.EncodeOfDecode : Prop :=
  ∀ w : Word, legalWord w = true → decode w ≠ .ill ∧ encode (decode w) = w

/-- For every 16-bit word w, the decoder, written from the opcode map of R64, gives ILL exactly when w is in the list of illegal words of R66.
(Rests on 30_encoding.md R64, 30_encoding.md R66, 45_sequencer.md R117.) -/
def Obligations.IllegalWordsExecuteAsIll : Prop :=
  ∀ w : Word, decode w = .ill ↔ illegalWord w = true

/-- 0x1114 is CHK 20, 0x1228 is ADV 40, 0x2000 is ETH, 0x2207 is JP4 0x07, 0x230D is JP6 0x0D, 0x3400 is CUDP, 0x4500 is FDISP, 0x4900 is REDIR, 0x5000 is FIN; 0x2247, 0x1001 and 0x5100 execute as ILL.
(Rests on 30_encoding.md R64, 30_encoding.md R66, 95_test_vectors.md L2.1.) -/
def Obligations.DecodedSampleWords : Prop :=
  decode 0x1114#16 = .chk 20 ∧ decode 0x1228#16 = .adv 40 ∧ decode 0x2000#16 = .eth ∧ decode 0x2207#16 = .jp4 0x07 ∧
  decode 0x230D#16 = .jp6 0x0D ∧ decode 0x3400#16 = .cudp ∧ decode 0x4500#16 = .fdisp ∧ decode 0x4900#16 = .redir ∧
  decode 0x5000#16 = .fin ∧ decode 0x2247#16 = .ill ∧ decode 0x1001#16 = .ill ∧ decode 0x5100#16 = .ill

/-- If the unit whose turn it is is in RUN and w is the word of the ROM that PROG selects at pc, then with an empty agenda step s is exec (decode w) s; with the step of a unit v at the head of the agenda, where v is in RUN and w is its word, step s is exec (decode w) of s with that entry taken off and the turn given to v. Nothing else is added around exec. The agenda and the turn are the model's own (log 8).
(Rests on 45_sequencer.md R116, 45_sequencer.md R117.) -/
def Obligations.StepRunsDecodedInstruction : Prop :=
  (∀ (s : State) (u : UnitState) (w : Word), s.agenda = [] → s.cur = some u → u.st = .run →
    (s.prog = 1 ∧ s.rom0[u.pc.toNat]? = some w ∨ s.prog = 2 ∧ s.rom1[u.pc.toNat]? = some w) →
    step s = exec (decode w) s) ∧
  ∀ (s : State) (v : Nat) (rest : List Move) (u : UnitState) (w : Word), s.agenda = .unitStep v :: rest →
    s.units[v]? = some u → u.st = .run →
    (s.prog = 1 ∧ s.rom0[u.pc.toNat]? = some w ∨ s.prog = 2 ∧ s.rom1[u.pc.toNat]? = some w) →
    step s = exec (decode w) { s with agenda := rest, turn := v }

/-- For every state whose turn names a unit u and every 16-bit word w, there is a state t, with u in RUN and everything else of u as it was, in which the very next step of s.withFetchWord 16 w runs decode w: step (s.withFetchWord 16 w) = exec (decode w) t. The agenda of t is that of s. withFetchWord is no move of the hardware but the model's own device (log 19, DEDUCED): it stands for a test ROM, puts the unit into RUN whatever its ST was, FAULT included, sets PROG to 1 where PROG selects no ROM, and puts the unit's step at the head of the agenda.
(Rests on 45_sequencer.md R117, 95_test_vectors.md L2.8.) -/
def Obligations.PlacedWordRunsNext : Prop :=
  ∀ (s : State) (u : UnitState) (w : Word), s.cur = some u →
    ∃ t : State, step (s.withFetchWord 16 w.toNat) = exec (decode w) t ∧ t.cur = some { u with st := .run } ∧
      t.agenda = s.agenda ∧ t.turn = s.turn ∧ t.cfg = s.cfg ∧ ∀ v, v ≠ s.turn → t.units[v]? = s.units[v]?

/-- If the agenda is empty and the unit whose turn it is is IDLE, step answers the same state; with the step of a unit v at the head of the agenda, where v is IDLE, step answers s with that entry taken off and the turn given to v, and nothing else differs. The agenda and the turn are the model's own (log 8).
(Rests on 60_exceptions.md R145, 10_state.md R36.) -/
def Obligations.IdleUnitWaits : Prop :=
  (∀ (s : State) (u : UnitState), s.agenda = [] → s.cur = some u → u.st = .idle → step s = .next s) ∧
  ∀ (s : State) (v : Nat) (rest : List Move) (u : UnitState), s.agenda = .unitStep v :: rest → s.units[v]? = some u →
    u.st = .idle → step s = .next { s with agenda := rest, turn := v }

/-- If the unit to move is in FAULT, step stops with the fault `stuck`, whether the unit moves by its turn or by the agenda (the turn and the agenda are the model's own, log 8; that the machine then stops is log 10).
(Rests on 10_state.md R36, 60_exceptions.md R130.) -/
def Obligations.FaultedUnitHasNoStep : Prop :=
  (∀ (s : State) (u : UnitState) (r : FaultReason), s.agenda = [] → s.cur = some u → u.st = .fault r →
    step s = .fault .stuck) ∧
  ∀ (s : State) (v : Nat) (rest : List Move) (u : UnitState) (r : FaultReason), s.agenda = .unitStep v :: rest →
    s.units[v]? = some u → u.st = .fault r → step s = .fault .stuck

/-- If unit v is in FAULT with reason r and step answers a next state, then unit v is in the same state after it, whoever moved.
(Rests on 60_exceptions.md R130.) -/
def Obligations.FaultIsSticky : Prop :=
  ∀ (s t : State) (v : Nat) (u : UnitState) (r : FaultReason), s.units[v]? = some u → u.st = .fault r →
    step s = .next t → t.units[v]? = some u

/-- For every number of units, LEN_MAX and CFG: PROG is NONE, CFG is its build constant, every unit is IDLE with every working register, Q, R and tgt unwritten, and a request to any unit is not accepted. (The values of pc and of the Counter Table are the model's choice, logs 2 and 3, and are not stated.)
(Rests on 70_reset_and_hazards.md R146, 10_state.md R42.) -/
def Obligations.PowerOnState : Prop :=
  ∀ (n : Nat) (lenMax : Offset) (cfg : BitVec 4),
    let s := State.powerOn n lenMax cfg
    s.prog = 0 ∧ s.cfg = cfg ∧ s.units.length = n ∧
    (∀ u ∈ s.units, u.st = .idle ∧ u.pos = none ∧ u.endOff = none ∧ u.l3 = none ∧ u.proto = none ∧ u.vdepth = none ∧
      u.act = none ∧ u.cause = none ∧ u.tgt = none ∧ u.q = none ∧ u.r = none) ∧
    ∀ (r : Request) (rest : List Move) (t : State), step { s with agenda := .request r :: rest } ≠ .next t

/-- With LOAD(p) at the head of the agenda: if p is 1 or 2 and every unit is IDLE, step answers a next state with PROG = p, the build constants unchanged, and every unit still IDLE with every record of its slice {0, 0} and pos, end, l3, proto, vdepth, act, cause, tgt, Q and R unwritten; if p is not 1 or 2, or some unit is not IDLE, the LOAD has no move. (The agenda is the model's own, log 8; that the registers are unwritten follows R42, log 22.)
(Rests on 70_reset_and_hazards.md R149, 10_state.md R42.) -/
def Obligations.LoadAttachesAndZeroes : Prop :=
  ∀ (s : State) (p : BitVec 2) (rest : List Move), s.agenda = .load p :: rest →
    ((p = 1 ∨ p = 2) → (∀ u ∈ s.units, u.st = .idle) →
      ∃ t : State, step s = .next t ∧ t.prog = p ∧ t.cfg = s.cfg ∧ t.lenMax = s.lenMax ∧ t.rom0 = s.rom0 ∧ t.rom1 = s.rom1 ∧
        t.agenda = rest ∧ t.units.length = s.units.length ∧
        ∀ (v : Nat) (y : UnitState), t.units[v]? = some y → y.st = .idle ∧ (∀ a, a < 5 → y.ct.get? a = some ⟨0, 0⟩) ∧
          y.pos = none ∧ y.endOff = none ∧ y.l3 = none ∧ y.proto = none ∧ y.vdepth = none ∧ y.act = none ∧ y.cause = none ∧
          y.tgt = none ∧ y.q = none ∧ y.r = none) ∧
    ((p ≠ 1 ∧ p ≠ 2) ∨ (∃ u ∈ s.units, u.st ≠ .idle) → ∀ t, step s ≠ .next t)

/-- For every next state of step: CFG, LEN_MAX and both ROMs are unchanged; and PROG is unchanged unless the step was a LOAD.
(Rests on 10_state.md R33, 10_state.md R34, 20_memory.md R60, 70_reset_and_hazards.md R149.) -/
def Obligations.OnlyLoadWritesProg : Prop :=
  ∀ s t : State, step s = .next t →
    t.cfg = s.cfg ∧ t.lenMax = s.lenMax ∧ t.rom0 = s.rom0 ∧ t.rom1 = s.rom1 ∧ t.units.length = s.units.length ∧
    (t.prog = s.prog ∨ ∃ p rest, s.agenda = .load p :: rest ∧ t.prog = p)

/-- With a request (u, F, len, iif) at the head of the agenda, where unit u is IDLE, PROG is 1 or 2, F has len bytes and len ≤ LEN_MAX: step answers a next state in which unit u is in RUN at pc = 0x00 with len and iif latched, F[i] the request's byte for every i < len, and pos, end, l3, proto, vdepth, act, cause, tgt, Q and R unwritten; its Counter Table slice and every other unit are unchanged. (The agenda is the model's own, log 8.)
(Rests on 45_sequencer.md R125, 10_state.md R32, 60_exceptions.md R135.) -/
def Obligations.RequestStartsInvocation : Prop :=
  ∀ (s : State) (r : Request) (rest : List Move) (u : UnitState), s.agenda = .request r :: rest →
    s.units[r.unit]? = some u → u.st = .idle → (s.prog = 1 ∨ s.prog = 2) → r.bytes.length = r.len.toNat →
    r.len.toNat ≤ s.lenMax.toNat →
    ∃ (t : State) (y : UnitState), step s = .next t ∧ t.units[r.unit]? = some y ∧ y.st = .run ∧ y.pc = 0x00 ∧
      y.len = r.len ∧ y.iif = r.iif ∧ (∀ i, i < r.len.toNat → y.frame.read i = r.bytes.getD i 0) ∧
      y.pos = none ∧ y.endOff = none ∧ y.l3 = none ∧ y.proto = none ∧ y.vdepth = none ∧ y.act = none ∧ y.cause = none ∧
      y.tgt = none ∧ y.q = none ∧ y.r = none ∧ y.ct = u.ct ∧ t.prog = s.prog ∧ t.agenda = rest ∧
      ∀ v, v ≠ r.unit → t.units[v]? = s.units[v]?

/-- With a request at the head of the agenda: if the unit does not exist or is not IDLE, or PROG is not 1 or 2, or F does not have len bytes, or len > LEN_MAX, then step answers no next state. (The agenda is the model's own, log 8; the refusals are log 9.)
(Rests on 45_sequencer.md R125, 60_exceptions.md R135, 93_implementation_defined.md U15, U16.) -/
def Obligations.RequestWithoutMove : Prop :=
  ∀ (s : State) (r : Request) (rest : List Move), s.agenda = .request r :: rest →
    ((∀ u, s.units[r.unit]? = some u → u.st ≠ .idle) ∨ (s.prog ≠ 1 ∧ s.prog ≠ 2) ∨ r.bytes.length ≠ r.len.toNat ∨
      s.lenMax.toNat < r.len.toNat) →
    ∀ t, step s ≠ .next t

/-- With a monitor read of CT[v][a].f at the head of the agenda, v a unit and a < 5: step answers the next state in which the answer is the value of that field at this step, and only the monitor's log and the agenda differ. The log of answers, and that one read is one field at one step, are the model's own choice (log 18, DESIGN CHOICE), as the agenda is (log 8).
(Rests on 20_memory.md R56, 60_exceptions.md R138.) -/
def Obligations.MonitorReadReturnsField : Prop :=
  ∀ (s : State) (v a : Nat) (f : CounterField) (rest : List Move) (x : UnitState) (c : Record),
    s.agenda = .monitor v a f :: rest → s.units[v]? = some x → x.ct.get? a = some c →
    step s = .next { s with agenda := rest,
                            monitorLog := ⟨v, a, f, match f with | .pk => c.pk | .bys => c.bys⟩ :: s.monitorLog }

/-- For 1 ≤ n ≤ 16 and `end` = e: if o + n ≤ e, MemRead(o, n) is the sum of F[o+k]·256^(n−1−k) over k < n, and MemBytes(o, n) is the byte string of the F[o+k]; if o + n > e both raise OOB_READ.
(Formalises R48.) -/
def Obligations.FrameReadIsBigEndian : Prop :=
  ∀ (u : UnitState) (e : Offset) (o n : Nat), u.endOff = some e → 1 ≤ n → n ≤ 16 →
    (o + n ≤ e.toNat →
      u.memRead o n = .ok (((List.range n).map fun k => (u.frame.read (o + k)).toNat * 256 ^ (n - 1 - k)).sum) ∧
      u.memBytes o n = .ok ((List.range n).map fun k => u.frame.read (o + k))) ∧
    (e.toNat < o + n → u.memRead o n = .error .oobRead ∧ u.memBytes o n = .error .oobRead)

/-- For 1 ≤ n ≤ 6, v < 2^(8n) and `end` = e: if o + n ≤ e, MemWrite(o, n, v) changes only the frame, byte o+k becomes v[8(n−1−k)+7 : 8(n−1−k)] for k < n, every other byte reads as before, and MemRead(o, n) then gives v; if o + n > e it raises OOB_WRITE. MemWriteBytes(o, s) stores the byte string s with the same check.
(Formalises R49.) -/
def Obligations.FrameWriteReadsBack : Prop :=
  ∀ (u : UnitState) (e : Offset) (o : Nat), u.endOff = some e →
    (∀ n v, 1 ≤ n → n ≤ 6 → v < 256 ^ n →
      (o + n ≤ e.toNat → ∃ m : Memory, u.memWrite o n v = .ok { u with frame := m } ∧
        (∀ k, k < n → (m.read (o + k)).toNat = v / 256 ^ (n - 1 - k) % 256) ∧
        (∀ b, b < o ∨ o + n ≤ b → m.read b = u.frame.read b) ∧
        ({ u with frame := m } : UnitState).memRead o n = .ok v) ∧
      (e.toNat < o + n → u.memWrite o n v = .error .oobWrite)) ∧
    ∀ bs : List Byte,
      (o + bs.length ≤ e.toNat → ∃ m : Memory, u.memWriteBytes o bs = .ok { u with frame := m } ∧
        (∀ k, k < bs.length → m.read (o + k) = bs.getD k 0) ∧ ∀ b, b < o ∨ o + bs.length ≤ b → m.read b = u.frame.read b) ∧
      (e.toNat < o + bs.length → u.memWriteBytes o bs = .error .oobWrite)

/-- CINIT is the word 0x1000; on every state of its unit it sets pos = 0, end = len, l3 = 0, proto = 0, vdepth = 0, act = PASS (2), cause = NONE (0) and adds 1 to pc; nothing else changes.
(Formalises R79.) -/
def Obligations.CinitInitialises : Prop :=
  encode .cinit = 0x1000#16 ∧
  ∀ (s : State) (u : UnitState), s.cur = some u →
    exec .cinit s = .next (s.put { u with pos := some 0, endOff := some u.len, l3 := some 0, proto := some 0,
                                          vdepth := some 0, act := some 2, cause := some 0, pc := u.pc + 1 })

/-- CHK n is the word 0x11nn. With pos = p and end = e: if p + n ≤ e it adds 1 to pc; if p + n > e it resolves PASS (2) with cause TRUNC (1). The sum does not wrap. Nothing else changes.
(Formalises R80.) -/
def Obligations.ChkChecksHeader : Prop :=
  ∀ n : BitVec 8, encode (.chk n) = 0x1100#16 + n.setWidth 16 ∧
  ∀ (s : State) (u : UnitState) (p e : Offset), s.cur = some u → u.pos = some p → u.endOff = some e →
    (p.toNat + n.toNat ≤ e.toNat → exec (.chk n) s = .next (s.put { u with pc := u.pc + 1 })) ∧
    (e.toNat < p.toNat + n.toNat →
      exec (.chk n) s = .next (s.put { u with act := some 2, cause := some 1, pc := 0x3F }))

/-- ADV n is the word 0x12nn. With pos = p and end = e: if p + n ≤ e, pos becomes p + n, exactly, and pc gains 1; if p + n > e it resolves PASS/TRUNC and pos is unchanged.
(Formalises R81.) -/
def Obligations.AdvAdvancesCursor : Prop :=
  ∀ n : BitVec 8, encode (.adv n) = 0x1200#16 + n.setWidth 16 ∧
  ∀ (s : State) (u : UnitState) (p e : Offset), s.cur = some u → u.pos = some p → u.endOff = some e →
    (p.toNat + n.toNat ≤ e.toNat → ∃ p' : Offset, p'.toNat = p.toNat + n.toNat ∧
      exec (.adv n) s = .next (s.put { u with pos := some p', pc := u.pc + 1 })) ∧
    (e.toNat < p.toNat + n.toNat →
      exec (.adv n) s = .next (s.put { u with act := some 2, cause := some 1, pc := 0x3F }))

/-- ETH is the word 0x2000. With pos = p and end = e: if p + 14 ≤ e, proto becomes F[p+12]·256 + F[p+13], pos becomes p + 14 and pc gains 1; otherwise it resolves PASS/TRUNC.
(Formalises R85.) -/
def Obligations.EthReadsProtocolField : Prop :=
  encode .eth = 0x2000#16 ∧
  ∀ (s : State) (u : UnitState) (p e : Offset), s.cur = some u → u.pos = some p → u.endOff = some e →
    (p.toNat + 14 ≤ e.toNat → ∃ (p' : Offset) (v : BitVec 16), p'.toNat = p.toNat + 14 ∧
      v.toNat = (u.frame.read (p.toNat + 12)).toNat * 256 + (u.frame.read (p.toNat + 13)).toNat ∧
      exec .eth s = .next (s.put { u with proto := some v, pos := some p', pc := u.pc + 1 })) ∧
    (e.toNat < p.toNat + 14 → exec .eth s = .next (s.put { u with act := some 2, cause := some 1, pc := 0x3F }))

/-- VLAN is the word 0x2100. With proto = pr: if pr is neither 0x8100 nor 0x88A8, only pc changes, by 1. If pr names a tag, with pos = p, end = e and vdepth = d: if p + 4 > e it resolves PASS/TRUNC; if p + 4 ≤ e, proto becomes F[p+2]·256 + F[p+3], pos becomes p + 4, pc gains 1 and vdepth becomes d + 1. From d = 3 the sum does not fit vdepth's 2 bits: some value results (a free value, log 15).
(Rests on 41_walker.md R86.) -/
def Obligations.VlanUnwrapsOneTag : Prop :=
  encode .vlan = 0x2100#16 ∧
  ∀ (s : State) (u : UnitState) (pr : BitVec 16), s.cur = some u → u.proto = some pr →
    (pr ≠ 0x8100 ∧ pr ≠ 0x88A8 → exec .vlan s = .next (s.put { u with pc := u.pc + 1 })) ∧
    ∀ p e : Offset, (pr = 0x8100 ∨ pr = 0x88A8) → u.pos = some p → u.endOff = some e →
      (e.toNat < p.toNat + 4 → exec .vlan s = .next (s.put { u with act := some 2, cause := some 1, pc := 0x3F })) ∧
      (p.toNat + 4 ≤ e.toNat → ∀ d : BitVec 2, u.vdepth = some d → ∃ (p' : Offset) (v : BitVec 16) (d' : BitVec 2) (k : Nat),
        p'.toNat = p.toNat + 4 ∧
        v.toNat = (u.frame.read (p.toNat + 2)).toNat * 256 + (u.frame.read (p.toNat + 3)).toNat ∧
        (d ≠ 3 → d'.toNat = d.toNat + 1 ∧ k = u.draws) ∧
        exec .vlan s = .next (s.put { u with proto := some v, pos := some p', vdepth := some d', pc := u.pc + 1, draws := k }))

/-- JP4 t is the word 0x22tt with tt < 64. With proto = pr: if pr = 0x0800 and pos = p, l3 becomes p and pc becomes t; if pr ≠ 0x0800, only pc changes, by 1. No frame byte is read.
(Formalises R87.) -/
def Obligations.Jp4BranchesOnIPv4 : Prop :=
  ∀ t : BitVec 6, encode (.jp4 t) = 0x2200#16 + t.setWidth 16 ∧
  ∀ (s : State) (u : UnitState) (pr : BitVec 16), s.cur = some u → u.proto = some pr →
    (∀ p : Offset, pr = 0x0800 → u.pos = some p → exec (.jp4 t) s = .next (s.put { u with l3 := some p, pc := t })) ∧
    (pr ≠ 0x0800 → exec (.jp4 t) s = .next (s.put { u with pc := u.pc + 1 }))

/-- JP6 t is the word 0x23tt with tt < 64. With proto = pr: if pr = 0x86DD and pos = p, l3 becomes p and pc becomes t; if pr ≠ 0x86DD, only pc changes, by 1. No frame byte is read.
(Formalises R88.) -/
def Obligations.Jp6BranchesOnIPv6 : Prop :=
  ∀ t : BitVec 6, encode (.jp6 t) = 0x2300#16 + t.setWidth 16 ∧
  ∀ (s : State) (u : UnitState) (pr : BitVec 16), s.cur = some u → u.proto = some pr →
    (∀ p : Offset, pr = 0x86DD → u.pos = some p → exec (.jp6 t) s = .next (s.put { u with l3 := some p, pc := t })) ∧
    (pr ≠ 0x86DD → exec (.jp6 t) s = .next (s.put { u with pc := u.pc + 1 }))

/-- UNSUP is the word 0x2400; on every state of its unit it sets act = PASS (2), cause = UNSUP (2) and pc = 0x3F, and changes nothing else.
(Rests on 41_walker.md R89, 45_sequencer.md R119.) -/
def Obligations.UnsupResolvesPass : Prop :=
  encode .unsup = 0x2400#16 ∧
  ∀ (s : State) (u : UnitState), s.cur = some u →
    exec .unsup s = .next (s.put { u with act := some 2, cause := some 2, pc := 0x3F })

/-- C4DST is the word 0x3000. The tested octet is at k = l3 + 16 when CFG[0] = 0 and l3 + 19 when CFG[0] = 1. With k + 1 ≤ end: if it is 0 or 255, DROP (1) with cause R1_DSTOCT (6); otherwise only pc changes, by 1.
(Formalises R93.) -/
def Obligations.C4dstDropsOctet0Or255 : Prop :=
  encode .c4dst = 0x3000#16 ∧
  ∀ (s : State) (u : UnitState) (l e : Offset) (k : Nat), s.cur = some u → u.l3 = some l → u.endOff = some e →
    k = l.toNat + (if s.cfg.getLsbD 0 then 19 else 16) → k + 1 ≤ e.toNat →
    (u.frame.read k = 0x00 ∨ u.frame.read k = 0xFF →
      exec .c4dst s = .next (s.put { u with act := some 1, cause := some 6, pc := 0x3F })) ∧
    (u.frame.read k ≠ 0x00 ∧ u.frame.read k ≠ 0xFF → exec .c4dst s = .next (s.put { u with pc := u.pc + 1 }))

/-- C4FRAG is the word 0x3100. With l3 + 8 ≤ end, let hi = F[l3+6] and lo = F[l3+7]. If bit 5 of hi (bit 13 of the word) is 1, or the low 5 bits of hi or any bit of lo is not 0 (the 13-bit offset), DROP with cause R2_FRAG (7); otherwise only pc changes, by 1. Bits 15 and 14 play no part.
(Formalises R94.) -/
def Obligations.C4fragDropsFragments : Prop :=
  encode .c4frag = 0x3100#16 ∧
  ∀ (s : State) (u : UnitState) (l e : Offset) (hi lo : Byte), s.cur = some u → u.l3 = some l → u.endOff = some e →
    l.toNat + 8 ≤ e.toNat → hi = u.frame.read (l.toNat + 6) → lo = u.frame.read (l.toNat + 7) →
    (hi.getLsbD 5 = true ∨ hi &&& 0x1F ≠ 0 ∨ lo ≠ 0 →
      exec .c4frag s = .next (s.put { u with act := some 1, cause := some 7, pc := 0x3F })) ∧
    (hi.getLsbD 5 = false ∧ hi &&& 0x1F = 0 ∧ lo = 0 → exec .c4frag s = .next (s.put { u with pc := u.pc + 1 }))

/-- C4L4 is the word 0x3200. With l3 + 10 ≤ end: if F[l3+9] ≠ 17, PASS with cause R4_DEFAULT (9). If it is 17 and CFG[1] = 1, pos becomes l3 + 20 and pc gains 1. If it is 17 and CFG[1] = 0, with ihl the low 4 bits of F[l3]: ihl < 5 gives PASS with cause BAD_IHL (13), otherwise pos becomes l3 + 4·ihl and pc gains 1. Where the sum does not fit pos's 32 bits some value results (a free value, log 14).
(Rests on 42_classifier.md R95.) -/
def Obligations.C4l4LocatesUdp : Prop :=
  encode .c4l4 = 0x3200#16 ∧
  ∀ (s : State) (u : UnitState) (l e : Offset) (ihl : Nat), s.cur = some u → u.l3 = some l → u.endOff = some e →
    l.toNat + 10 ≤ e.toNat → ihl = (u.frame.read l.toNat).toNat % 16 →
    (u.frame.read (l.toNat + 9) ≠ 17 →
      exec .c4l4 s = .next (s.put { u with act := some 2, cause := some 9, pc := 0x3F })) ∧
    (u.frame.read (l.toNat + 9) = 17 → s.cfg.getLsbD 1 = false → ihl < 5 →
      exec .c4l4 s = .next (s.put { u with act := some 2, cause := some 13, pc := 0x3F })) ∧
    ∀ sum : Nat, u.frame.read (l.toNat + 9) = 17 →
      (s.cfg.getLsbD 1 = true ∧ sum = l.toNat + 20 ∨ s.cfg.getLsbD 1 = false ∧ 5 ≤ ihl ∧ sum = l.toNat + 4 * ihl) →
      ∃ (p' : Offset) (k : Nat), (sum < 2 ^ 32 → p'.toNat = sum ∧ k = u.draws) ∧
        exec .c4l4 s = .next (s.put { u with pos := some p', pc := u.pc + 1, draws := k })

/-- C6L4 is the word 0x3300. With l3 + 7 ≤ end: if F[l3+6] ≠ 17, PASS with cause R4_DEFAULT (9); otherwise only pc changes, by 1.
(Formalises R96.) -/
def Obligations.C6l4PassesNonUdp : Prop :=
  encode .c6l4 = 0x3300#16 ∧
  ∀ (s : State) (u : UnitState) (l e : Offset), s.cur = some u → u.l3 = some l → u.endOff = some e →
    l.toNat + 7 ≤ e.toNat →
    (u.frame.read (l.toNat + 6) ≠ 17 →
      exec .c6l4 s = .next (s.put { u with act := some 2, cause := some 9, pc := 0x3F })) ∧
    (u.frame.read (l.toNat + 6) = 17 → exec .c6l4 s = .next (s.put { u with pc := u.pc + 1 }))

/-- CUDP is the word 0x3400. With pos + 4 ≤ end, let sp = F[pos]·256 + F[pos+1] and dp = F[pos+2]·256 + F[pos+3]. If sp = 53 or dp = 53, DROP with cause R3_DNS (8); otherwise PASS with cause R4_DEFAULT (9). Nothing else changes.
(Formalises R97.) -/
def Obligations.CudpDropsPort53 : Prop :=
  encode .cudp = 0x3400#16 ∧
  ∀ (s : State) (u : UnitState) (p e : Offset) (sp dp : Nat), s.cur = some u → u.pos = some p → u.endOff = some e →
    p.toNat + 4 ≤ e.toNat →
    sp = (u.frame.read p.toNat).toNat * 256 + (u.frame.read (p.toNat + 1)).toNat →
    dp = (u.frame.read (p.toNat + 2)).toNat * 256 + (u.frame.read (p.toNat + 3)).toNat →
    (sp = 53 ∨ dp = 53 → exec .cudp s = .next (s.put { u with act := some 1, cause := some 8, pc := 0x3F })) ∧
    (sp ≠ 53 ∧ dp ≠ 53 → exec .cudp s = .next (s.put { u with act := some 2, cause := some 9, pc := 0x3F }))

/-- TTL4 is the word 0x4000. With l3 + 9 ≤ end: if F[l3+8] ≤ 1, PASS with cause TTL_GUARD (10); otherwise only pc changes, by 1. No frame byte is written.
(Formalises R101.) -/
def Obligations.Ttl4GuardsHopCount : Prop :=
  encode .ttl4 = 0x4000#16 ∧
  ∀ (s : State) (u : UnitState) (l e : Offset), s.cur = some u → u.l3 = some l → u.endOff = some e →
    l.toNat + 9 ≤ e.toNat →
    ((u.frame.read (l.toNat + 8)).toNat ≤ 1 →
      exec .ttl4 s = .next (s.put { u with act := some 2, cause := some 10, pc := 0x3F })) ∧
    (1 < (u.frame.read (l.toNat + 8)).toNat → exec .ttl4 s = .next (s.put { u with pc := u.pc + 1 }))

/-- TTL6 is the word 0x4200. With l3 + 8 ≤ end: if F[l3+7] ≤ 1, PASS with cause TTL_GUARD (10); otherwise only pc changes, by 1. No frame byte is written.
(Formalises R103.) -/
def Obligations.Ttl6GuardsHopCount : Prop :=
  encode .ttl6 = 0x4200#16 ∧
  ∀ (s : State) (u : UnitState) (l e : Offset), s.cur = some u → u.l3 = some l → u.endOff = some e →
    l.toNat + 8 ≤ e.toNat →
    ((u.frame.read (l.toNat + 7)).toNat ≤ 1 →
      exec .ttl6 s = .next (s.put { u with act := some 2, cause := some 10, pc := 0x3F })) ∧
    (1 < (u.frame.read (l.toNat + 7)).toNat → exec .ttl6 s = .next (s.put { u with pc := u.pc + 1 }))

/-- Q4 is the word 0x4100. With l3 + 20 ≤ end, Q becomes {IPV4, tos = F[l3+1] zero-extended, tlen = F[l3+2]·256 + F[l3+3], l4p = F[l3+9], src = F[l3+12..15], dst = F[l3+16..19], iif} and pc gains 1; nothing else changes.
(Formalises R102.) -/
def Obligations.Q4BuildsQuery : Prop :=
  encode .q4 = 0x4100#16 ∧
  ∀ (s : State) (u : UnitState) (l e : Offset) (tlen : BitVec 16), s.cur = some u → u.l3 = some l → u.endOff = some e →
    l.toNat + 20 ≤ e.toNat →
    tlen.toNat = (u.frame.read (l.toNat + 2)).toNat * 256 + (u.frame.read (l.toNat + 3)).toNat →
    exec .q4 s = .next (s.put { u with
      q := some { family := .ipv4, tos := (u.frame.read (l.toNat + 1)).setWidth 32, tlen := tlen,
                  l4p := u.frame.read (l.toNat + 9),
                  src := (List.range 4).map fun k => u.frame.read (l.toNat + 12 + k),
                  dst := (List.range 4).map fun k => u.frame.read (l.toNat + 16 + k), iif := u.iif }, pc := u.pc + 1 })

/-- Q6 is the word 0x4300. With l3 + 40 ≤ end, Q becomes {IPV6, tos = the 28 low bits of the big-endian word F[l3..l3+3], tlen = F[l3+4]·256 + F[l3+5], l4p = F[l3+6], src = F[l3+8..23], dst = F[l3+24..39], iif} and pc gains 1; nothing else changes.
(Formalises R104.) -/
def Obligations.Q6BuildsQuery : Prop :=
  encode .q6 = 0x4300#16 ∧
  ∀ (s : State) (u : UnitState) (l e : Offset) (tos : BitVec 32) (tlen : BitVec 16), s.cur = some u → u.l3 = some l →
    u.endOff = some e → l.toNat + 40 ≤ e.toNat →
    tos.toNat = ((u.frame.read l.toNat).toNat * 2 ^ 24 + (u.frame.read (l.toNat + 1)).toNat * 2 ^ 16 +
                 (u.frame.read (l.toNat + 2)).toNat * 2 ^ 8 + (u.frame.read (l.toNat + 3)).toNat) % 2 ^ 28 →
    tlen.toNat = (u.frame.read (l.toNat + 4)).toNat * 256 + (u.frame.read (l.toNat + 5)).toNat →
    exec .q6 s = .next (s.put { u with
      q := some { family := .ipv6, tos := tos, tlen := tlen, l4p := u.frame.read (l.toNat + 6),
                  src := (List.range 16).map fun k => u.frame.read (l.toNat + 8 + k),
                  dst := (List.range 16).map fun k => u.frame.read (l.toNat + 24 + k), iif := u.iif }, pc := u.pc + 1 })

/-- FIB is the word 0x4400. With Q written: if the service has the answer a ready, R becomes a, for every a; if none stands ready, R becomes some answer (a free value, log 11). pc gains 1; nothing else of the core changes.
(Rests on 43_forwarder.md R105.) -/
def Obligations.FibWritesAnyAnswer : Prop :=
  encode .fib = 0x4400#16 ∧
  ∀ (s : State) (u : UnitState) (q : Query), s.cur = some u → u.q = some q →
    (∀ (a : LookupResult) (rest : List LookupResult), u.lookupAnswers = a :: rest →
      exec .fib s = .next (s.put { u with r := some a, lookupAnswers := rest, pc := u.pc + 1 })) ∧
    (u.lookupAnswers = [] → ∃ a : LookupResult,
      exec .fib s = .next (s.put { u with r := some a, draws := u.draws + 1, pc := u.pc + 1 }))

/-- FDISP is the word 0x4500. With R written: rc = 0 only adds 1 to pc; rc in 1..3 resolves DROP with cause HARD (4); rc in 4..15 resolves PASS with cause SOFT (3).
(Formalises R106.) -/
def Obligations.FdispDispatchesOnResult : Prop :=
  encode .fdisp = 0x4500#16 ∧
  ∀ (s : State) (u : UnitState) (a : LookupResult), s.cur = some u → u.r = some a →
    (a.rc = 0 → exec .fdisp s = .next (s.put { u with pc := u.pc + 1 })) ∧
    (1 ≤ a.rc.toNat ∧ a.rc.toNat ≤ 3 →
      exec .fdisp s = .next (s.put { u with act := some 1, cause := some 4, pc := 0x3F })) ∧
    (4 ≤ a.rc.toNat → exec .fdisp s = .next (s.put { u with act := some 2, cause := some 3, pc := 0x3F }))

/-- For every 16-bit c, with s = c + 0x0100: under CFG[2] = 0 CsumTTL(c) = s mod 2^16 + s div 2^16, in 0x0001..0xFFFF; under CFG[2] = 1 it is (s + (s ≥ 0xFFFF ? 1 : 0)) mod 2^16, in 0x0000..0xFFFE; the two differ exactly at c = 0xFEFF, where they are 0xFFFF and 0x0000.
(Formalises R110.) -/
def Obligations.ChecksumDelta : Prop :=
  ∀ (c : Nat) (g0 g1 : BitVec 4), c < 2 ^ 16 → g0.getLsbD 2 = false → g1.getLsbD 2 = true →
    csumTtl g0 c = (c + 0x0100) % 2 ^ 16 + (c + 0x0100) / 2 ^ 16 ∧
    csumTtl g1 c = (c + 0x0100 + (if 0xFFFF ≤ c + 0x0100 then 1 else 0)) % 2 ^ 16 ∧
    1 ≤ csumTtl g0 c ∧ csumTtl g0 c ≤ 0xFFFF ∧ csumTtl g1 c ≤ 0xFFFE ∧
    (csumTtl g0 c ≠ csumTtl g1 c ↔ c = 0xFEFF) ∧ (c = 0xFEFF → csumTtl g0 c = 0xFFFF ∧ csumTtl g1 c = 0x0000)

/-- DEC4 is the word 0x4600. With l3 + 12 ≤ end, ttl = F[l3+8] and c = F[l3+10]·256 + F[l3+11]: only the frame and pc change, pc by 1. If ttl ≥ 1, byte l3+8 becomes ttl − 1. Bytes l3+10 and l3+11 become CsumTTL(c), high byte first. Every other byte reads as before. If ttl = 0 byte l3+8 holds some value and one free value is drawn (log 13); the rest is as stated.
(Rests on 44_rewrite.md R111.) -/
def Obligations.Dec4DecrementsTtl : Prop :=
  encode .dec4 = 0x4600#16 ∧
  ∀ (s : State) (u : UnitState) (l e : Offset) (ttl c : Nat), s.cur = some u → u.l3 = some l → u.endOff = some e →
    l.toNat + 12 ≤ e.toNat → ttl = (u.frame.read (l.toNat + 8)).toNat →
    c = (u.frame.read (l.toNat + 10)).toNat * 256 + (u.frame.read (l.toNat + 11)).toNat →
    ∃ m : Memory,
      exec .dec4 s = .next (s.put { u with frame := m, pc := u.pc + 1, draws := if ttl = 0 then u.draws + 1 else u.draws }) ∧
      (1 ≤ ttl → (m.read (l.toNat + 8)).toNat = ttl - 1) ∧
      (m.read (l.toNat + 10)).toNat = csumTtl s.cfg c / 256 ∧ (m.read (l.toNat + 11)).toNat = csumTtl s.cfg c % 256 ∧
      ∀ b, b ≠ l.toNat + 8 → b ≠ l.toNat + 10 → b ≠ l.toNat + 11 → m.read b = u.frame.read b

/-- DEC6 is the word 0x4700. With l3 + 8 ≤ end and h = F[l3+7]: only the frame and pc change, pc by 1. If h ≥ 1, byte l3+7 becomes h − 1. Every other byte reads as before. If h = 0 byte l3+7 holds some value and one free value is drawn (log 13).
(Rests on 44_rewrite.md R112.) -/
def Obligations.Dec6DecrementsHopLimit : Prop :=
  encode .dec6 = 0x4700#16 ∧
  ∀ (s : State) (u : UnitState) (l e : Offset) (h : Nat), s.cur = some u → u.l3 = some l → u.endOff = some e →
    l.toNat + 8 ≤ e.toNat → h = (u.frame.read (l.toNat + 7)).toNat →
    ∃ m : Memory,
      exec .dec6 s = .next (s.put { u with frame := m, pc := u.pc + 1, draws := if h = 0 then u.draws + 1 else u.draws }) ∧
      (1 ≤ h → (m.read (l.toNat + 7)).toNat = h - 1) ∧ ∀ b, b ≠ l.toNat + 7 → m.read b = u.frame.read b

/-- L2RW is the word 0x4800. With R written and end ≥ 12: byte i < 6 becomes byte i of R.dmac, byte 6 + i becomes byte i of R.smac, most significant first; every byte from 12 on reads as before; pc gains 1; nothing else changes.
(Formalises R113.) -/
def Obligations.L2rwSubstitutesMacs : Prop :=
  encode .l2rw = 0x4800#16 ∧
  ∀ (s : State) (u : UnitState) (a : LookupResult) (e : Offset), s.cur = some u → u.r = some a → u.endOff = some e →
    12 ≤ e.toNat →
    ∃ m : Memory, exec .l2rw s = .next (s.put { u with frame := m, pc := u.pc + 1 }) ∧
      (∀ i, i < 6 → m.read i = a.dmac.extractLsb' (8 * (5 - i)) 8 ∧ m.read (6 + i) = a.smac.extractLsb' (8 * (5 - i)) 8) ∧
      ∀ b, 12 ≤ b → m.read b = u.frame.read b

/-- REDIR is the word 0x4900. With R written: if CFG[3] = 0, tgt becomes R.oif and it resolves REDIRECT (4) with cause FORWARDED (11), without asking the device map. If CFG[3] = 1 and the map's answer b stands ready: b = true gives the same, b = false resolves ABORTED (0) with cause DEVMAP_MISS (12) and leaves tgt. If no answer stands ready, one of the two happens (a free value, log 12).
(Rests on 44_rewrite.md R114.) -/
def Obligations.RedirSelectsEgress : Prop :=
  encode .redir = 0x4900#16 ∧
  ∀ (s : State) (u : UnitState) (a : LookupResult), s.cur = some u → u.r = some a →
    (s.cfg.getLsbD 3 = false →
      exec .redir s = .next (s.put { u with tgt := some a.oif, act := some 4, cause := some 11, pc := 0x3F })) ∧
    (∀ rest, s.cfg.getLsbD 3 = true → u.devmapAnswers = true :: rest →
      exec .redir s = .next (s.put { u with devmapAnswers := rest, tgt := some a.oif, act := some 4, cause := some 11, pc := 0x3F })) ∧
    (∀ rest, s.cfg.getLsbD 3 = true → u.devmapAnswers = false :: rest →
      exec .redir s = .next (s.put { u with devmapAnswers := rest, act := some 0, cause := some 12, pc := 0x3F })) ∧
    (s.cfg.getLsbD 3 = true → u.devmapAnswers = [] →
      exec .redir s = .next (s.put { u with draws := u.draws + 1, tgt := some a.oif, act := some 4, cause := some 11, pc := 0x3F }) ∨
      exec .redir s = .next (s.put { u with draws := u.draws + 1, act := some 0, cause := some 12, pc := 0x3F }))

/-- FIN is the word 0x5000. With act = a ≥ 5: the response is ABORTED with no target, cause becomes BADACT (5), and no counter changes. With act = a < 5 and end = e (and tgt written if a = REDIRECT): pk of record a gains 1 and by gains e, mod 2^64, no other record changes, and the response is a, with tgt as its target exactly when a = REDIRECT. In both the response carries the len frame bytes, ST becomes IDLE, and nothing else changes, pc included. Three parts are the model's choice: that the registers of the now IDLE unit are kept, where U13 leaves them open (log 26, DESIGN CHOICE); that a = 3 is counted and answered as 3, beside R126's four actions (log 23, DEDUCED); and that the unit keeps its responses (log 17, DESIGN CHOICE).
(Rests on 45_sequencer.md R120, 45_sequencer.md R126.) -/
def Obligations.FinCountsAndResponds : Prop :=
  encode .fin = 0x5000#16 ∧
  (∀ (s : State) (u : UnitState) (a : BitVec 3), s.cur = some u → u.act = some a → 5 ≤ a.toNat →
    exec .fin s = .next (s.put { u with
      cause := some 5, st := .idle,
      responses := ⟨0, none, (List.range u.len.toNat).map fun k => u.frame.read k⟩ :: u.responses })) ∧
  ∀ (s : State) (u : UnitState) (a : BitVec 3) (e : Offset) (o : IfId) (c : Record), s.cur = some u → u.act = some a →
    a.toNat < 5 → u.endOff = some e → (a = 4 → u.tgt = some o) → u.ct.get? a.toNat = some c →
    ∃ ct : Slice,
      exec .fin s = .next (s.put { u with
        ct := ct, st := .idle,
        responses := ⟨a, if a = 4 then some o else none, (List.range u.len.toNat).map fun k => u.frame.read k⟩ :: u.responses }) ∧
      ct.get? a.toNat = some ⟨BitVec.ofNat 64 (c.pk.toNat + 1), BitVec.ofNat 64 (c.bys.toNat + e.toNat)⟩ ∧
      ∀ b, b ≠ a.toNat → ct.get? b = u.ct.get? b

/-- ILL is the word 0x0000; on every state of its unit, ST becomes FAULT with reason ILLEGAL; pc, the registers, the frame, the Counter Table and the responses are unchanged.
(Formalises R121.) -/
def Obligations.IllEntersFault : Prop :=
  encode .ill = 0x0000#16 ∧ (∀ imm : BitVec 8, decode (imm.setWidth 16) = .ill) ∧
  (∀ w : Word, illegalWord w = true → decode w = .ill) ∧
  ∀ (s : State) (u : UnitState), s.cur = some u → exec .ill s = .next (s.put { u with st := .fault .illegal })

/-- For each register a micro-operation reads: if it is unwritten, the micro-operation puts its unit into FAULT with reason UNWRITTEN and nothing else changes. CHK, ADV, ETH and CUDP read pos and end; VLAN and JP4, JP6 read proto, and pos (VLAN also end) when proto selects, and VLAN vdepth when the 4 bytes of the tag are there; C4DST, C4FRAG, C4L4, C6L4, TTL4, TTL6, Q4, Q6, DEC4 and DEC6 read l3 and end; FIB reads Q; FDISP, L2RW and REDIR read R, L2RW also end; FIN reads act, end when act < 5 and tgt when act = REDIRECT (FIN's two last reads rest on log 16; the order of the reads is log 24).
(Rests on 10_state.md R32, 00_scope.md R11, 41_walker.md R86, 60_exceptions.md R130.) -/
def Obligations.UnwrittenRegisterFaults : Prop :=
  ∀ (s : State) (u : UnitState), s.cur = some u →
    let fault := Host.Outcome.next (φ := Fault) (ρ := Refusal) (s.put { u with st := .fault .unwritten })
    (u.pos = none ∨ u.endOff = none →
      (∀ n, exec (.chk n) s = fault ∧ exec (.adv n) s = fault) ∧ exec .eth s = fault ∧ exec .cudp s = fault) ∧
    (u.proto = none → exec .vlan s = fault ∧ ∀ t, exec (.jp4 t) s = fault ∧ exec (.jp6 t) s = fault) ∧
    (u.proto = some 0x8100 ∨ u.proto = some 0x88A8 → u.pos = none ∨ u.endOff = none → exec .vlan s = fault) ∧
    (∀ p e : Offset, (u.proto = some 0x8100 ∨ u.proto = some 0x88A8) → u.pos = some p → u.endOff = some e →
      p.toNat + 4 ≤ e.toNat → u.vdepth = none → exec .vlan s = fault) ∧
    (∀ t, u.pos = none → (u.proto = some 0x0800 → exec (.jp4 t) s = fault) ∧ (u.proto = some 0x86DD → exec (.jp6 t) s = fault)) ∧
    (u.l3 = none ∨ u.endOff = none →
      exec .c4dst s = fault ∧ exec .c4frag s = fault ∧ exec .c4l4 s = fault ∧ exec .c6l4 s = fault ∧ exec .ttl4 s = fault ∧
      exec .ttl6 s = fault ∧ exec .q4 s = fault ∧ exec .q6 s = fault ∧ exec .dec4 s = fault ∧ exec .dec6 s = fault) ∧
    (u.q = none → exec .fib s = fault) ∧
    (u.r = none → exec .fdisp s = fault ∧ exec .l2rw s = fault ∧ exec .redir s = fault) ∧
    (u.endOff = none → exec .l2rw s = fault) ∧
    (u.act = none → exec .fin s = fault) ∧
    (∀ a : BitVec 3, u.act = some a → a.toNat < 5 → u.endOff = none → exec .fin s = fault) ∧
    (u.act = some 4 → u.tgt = none → exec .fin s = fault)

/-- With l3 = l, pos = p and end = e: C4DST, C4FRAG, C4L4, C6L4, TTL4, TTL6, Q4, Q6, DEC4 and DEC6 enter FAULT with OOB_READ when the bytes they read at l3 reach past e, CUDP when p + 4 > e, and L2RW enters FAULT with OOB_WRITE when e < 12. Nothing else changes: no partial write is left.
(Rests on 20_memory.md R48, 20_memory.md R49, 60_exceptions.md R130.) -/
def Obligations.OutOfBoundsAccessFaults : Prop :=
  ∀ (s : State) (u : UnitState) (l p e : Offset), s.cur = some u → u.l3 = some l → u.pos = some p → u.endOff = some e →
    let fault := Host.Outcome.next (φ := Fault) (ρ := Refusal) (s.put { u with st := .fault .oobRead })
    (e.toNat < l.toNat + (if s.cfg.getLsbD 0 then 20 else 17) → exec .c4dst s = fault) ∧
    (e.toNat < l.toNat + 8 → exec .c4frag s = fault) ∧
    (e.toNat < l.toNat + 10 → exec .c4l4 s = fault) ∧
    (e.toNat < l.toNat + 7 → exec .c6l4 s = fault) ∧
    (e.toNat < p.toNat + 4 → exec .cudp s = fault) ∧
    (e.toNat < l.toNat + 9 → exec .ttl4 s = fault) ∧
    (e.toNat < l.toNat + 8 → exec .ttl6 s = fault) ∧
    (e.toNat < l.toNat + 20 → exec .q4 s = fault) ∧
    (e.toNat < l.toNat + 40 → exec .q6 s = fault) ∧
    (e.toNat < l.toNat + 12 → exec .dec4 s = fault) ∧
    (e.toNat < l.toNat + 8 → exec .dec6 s = fault) ∧
    (∀ a, u.r = some a → e.toNat < 12 → exec .l2rw s = .next (s.put { u with st := .fault .oobWrite }))

/-- For every micro-operation i: if exec answers a next state in which the unit whose turn it was, in RUN before, is in FAULT with reason r, then that next state is the state before with that unit's ST set to FAULT(r): pc, the registers, the frame, the Counter Table, the responses and every other unit are unchanged.
(Rests on 60_exceptions.md R130, 00_scope.md R13.) -/
def Obligations.FaultEntryChangesOnlySt : Prop :=
  ∀ (i : Instr) (s t : State) (u y : UnitState) (r : FaultReason), s.cur = some u → u.st = .run → exec i s = .next t →
    t.cur = some y → y.st = .fault r → t = s.put { u with st := .fault r }

/-- For every micro-operation i and every state whose turn names a unit u, exec answers the next state that is s with some other state of that unit: every other unit, PROG, CFG, LEN_MAX, the ROMs, the agenda, the turn and the monitor's log are unchanged.
(Rests on 10_state.md R20, 10_state.md R21, 60_exceptions.md R143.) -/
def Obligations.EveryMicroOperationCompletes : Prop :=
  ∀ (i : Instr) (s : State) (u : UnitState), s.cur = some u →
    ∃ y : UnitState, exec i s = .next (s.put y) ∧ (s.put y).cur = some y ∧
      (∀ v, v ≠ s.turn → (s.put y).units[v]? = s.units[v]?) ∧
      (s.put y).prog = s.prog ∧ (s.put y).cfg = s.cfg ∧ (s.put y).lenMax = s.lenMax ∧ (s.put y).rom0 = s.rom0 ∧
      (s.put y).rom1 = s.rom1 ∧ (s.put y).agenda = s.agenda ∧ (s.put y).turn = s.turn ∧ (s.put y).monitorLog = s.monitorLog

/-- For two states with the same CFG and turn whose unit at that turn is the same u, however all else differs (the other units, their Counter Table slices, PROG, the ROMs, the agenda), every micro-operation leaves that unit in the same state. The answers that FIB and REDIR read count as the unit's own state here: the ready ones are held in it, and where none stands ready the free answer is a function of the unit's number, its draw count and the operand (logs 11, 12, 20, the model's own), while R136 and R137 let two answers differ; the other free values are functions of the unit's number and draw count too (logs 13 to 15).
(Rests on 10_state.md R41, 20_memory.md R55, 60_exceptions.md R143.) -/
def Obligations.EffectDependsOnOwnUnitOnly : Prop :=
  ∀ (i : Instr) (s s' : State) (u : UnitState), s.cur = some u → s'.cur = some u → s.turn = s'.turn → s.cfg = s'.cfg →
    ∃ y : UnitState, exec i s = .next (s.put y) ∧ exec i s' = .next (s'.put y)

/-- For every micro-operation i that answers a next state, with u its unit before and y after: len and iif never change; pos changes only in CINIT, ADV, ETH, VLAN, C4L4; end only in CINIT; l3 only in CINIT, JP4, JP6; proto only in CINIT, ETH, VLAN; vdepth only in CINIT, VLAN; tgt only in REDIR; Q only in Q4, Q6; R only in FIB; act only in CINIT, and cause only in CINIT, FIN, or, both, in a micro-operation that resolves and then leaves pc = 0x3F, which JP4, JP6, Q4, Q6, FIB, DEC4, DEC6, L2RW, FIN and ILL never do; the Counter Table and the responses only in FIN; the ready lookup answers only in FIB, the ready device-map answers only in REDIR (these two lists are the model's own, logs 11, 12, and the kept responses are log 17). That FIN leaves the registers of the unit it makes IDLE as they were is the model's choice, which U13 leaves open (log 26, DESIGN CHOICE). A plain advance from pc 0x3E also ends at 0x3F; that it writes neither act nor cause is what the statement of each micro-operation's effect says.
(Rests on 10_state.md R23, 10_state.md R24, 10_state.md R25, 10_state.md R26, 10_state.md R28, 10_state.md R29, 10_state.md R30, 10_state.md R31, 10_state.md R32, 10_state.md R37, 10_state.md R38, 10_state.md R39.) -/
def Obligations.RegistersWrittenOnlyByNamedMicroOps : Prop :=
  ∀ (i : Instr) (s t : State) (u y : UnitState), s.cur = some u → exec i s = .next t → t.cur = some y →
    y.len = u.len ∧ y.iif = u.iif ∧
    (y.pos = u.pos ∨ i = .cinit ∨ (∃ n, i = .adv n) ∨ i = .eth ∨ i = .vlan ∨ i = .c4l4) ∧
    (y.endOff = u.endOff ∨ i = .cinit) ∧
    (y.l3 = u.l3 ∨ i = .cinit ∨ (∃ a, i = .jp4 a) ∨ ∃ a, i = .jp6 a) ∧
    (y.proto = u.proto ∨ i = .cinit ∨ i = .eth ∨ i = .vlan) ∧
    (y.vdepth = u.vdepth ∨ i = .cinit ∨ i = .vlan) ∧
    (y.tgt = u.tgt ∨ i = .redir) ∧
    (y.q = u.q ∨ i = .q4 ∨ i = .q6) ∧
    (y.r = u.r ∨ i = .fib) ∧
    (y.act = u.act ∨ i = .cinit ∨ y.pc = 0x3F) ∧
    (y.cause = u.cause ∨ i = .cinit ∨ i = .fin ∨ y.pc = 0x3F) ∧
    ((∃ a, i = .jp4 a) ∨ (∃ a, i = .jp6 a) ∨ i = .q4 ∨ i = .q6 ∨ i = .fib ∨ i = .dec4 ∨ i = .dec6 ∨ i = .l2rw ∨ i = .fin ∨
      i = .ill → y.act = u.act ∧ (y.cause = u.cause ∨ i = .fin)) ∧
    (y.ct = u.ct ∧ y.responses = u.responses ∨ i = .fin) ∧
    (y.lookupAnswers = u.lookupAnswers ∨ i = .fib) ∧ (y.devmapAnswers = u.devmapAnswers ∨ i = .redir)

/-- For every micro-operation other than DEC4, DEC6 and L2RW that answers a next state, every offset reads after as it read before.
(Rests on 20_memory.md R50, 20_memory.md R51.) -/
def Obligations.NonStoringMicroOpsKeepFrame : Prop :=
  ∀ (i : Instr) (s t : State) (u y : UnitState), i ≠ .dec4 → i ≠ .dec6 → i ≠ .l2rw →
    s.cur = some u → exec i s = .next t → t.cur = some y → ∀ b, y.frame.read b = u.frame.read b

/-- If DEC4, DEC6 or L2RW answers a next state: every byte outside l3+8, l3+10, l3+11 (DEC4), outside l3+7 (DEC6), or from 12 on (L2RW) reads as before, the addresses computed from the unit before; and the unit after is the unit before with another frame, pc, ST and draw count.
(Rests on 20_memory.md R50, 44_rewrite.md R111, 44_rewrite.md R112, 44_rewrite.md R113.) -/
def Obligations.StoringMicroOpsWriteSet : Prop :=
  ∀ (i : Instr) (s t : State) (u y : UnitState), (i = .dec4 ∨ i = .dec6 ∨ i = .l2rw) →
    s.cur = some u → exec i s = .next t → t.cur = some y →
    y = { u with frame := y.frame, pc := y.pc, st := y.st, draws := y.draws } ∧
    (∀ l b, i = .dec4 → u.l3 = some l → b ≠ l.toNat + 8 → b ≠ l.toNat + 10 → b ≠ l.toNat + 11 →
      y.frame.read b = u.frame.read b) ∧
    (∀ l b, i = .dec6 → u.l3 = some l → b ≠ l.toNat + 7 → y.frame.read b = u.frame.read b) ∧
    (∀ b, i = .l2rw → 12 ≤ b → y.frame.read b = u.frame.read b)

/-- For every micro-operation i of a RUN unit that answers a next state, with u the unit before and y after: if y is in FAULT, or i is FIN, pc is unchanged; otherwise y is in RUN and pc is u's plus 1 mod 64, or 0x3F with act and cause written (a resolve), or the target t of a JP4 t or JP6 t whose proto matched.
(Rests on 45_sequencer.md R118, 45_sequencer.md R119.) -/
def Obligations.ProgramCounterUpdate : Prop :=
  ∀ (i : Instr) (s t : State) (u y : UnitState), s.cur = some u → u.st = .run → exec i s = .next t → t.cur = some y →
    ((∃ r, y.st = .fault r) ∧ y.pc = u.pc) ∨ (i = .fin ∧ y.st = .idle ∧ y.pc = u.pc) ∨
    (i ≠ .fin ∧ y.st = .run ∧
      (y.pc.toNat = (u.pc.toNat + 1) % 64 ∨ (y.pc = 0x3F ∧ y.act.isSome = true ∧ y.cause.isSome = true) ∨
        (∃ a, i = .jp4 a ∧ y.pc = a ∧ u.proto = some 0x0800) ∨ ∃ a, i = .jp6 a ∧ y.pc = a ∧ u.proto = some 0x86DD))

/-- For every number of units, LEN_MAX and CFG, the power-on state satisfies the step invariant Inv and the ROM invariant RomInv.
(Rests on 70_reset_and_hazards.md R146.) -/
def Obligations.InvariantAtPowerOn : Prop :=
  ∀ (n : Nat) (lenMax : Offset) (cfg : BitVec 4), Safety.Inv (State.powerOn n lenMax cfg) ∧ Safety.RomInv (State.powerOn n lenMax cfg)

/-- For every state with Inv, whatever its ROMs hold and whoever moves, if step answers a next state then Inv holds of it. Inv says: PROG is not 3 and a RUN unit has a program; in every unit the frame memory has its canonical form, end, once written, is len, and act, once written, is ABORTED, DROP, PASS or REDIRECT; and with a program attached each Counter Table record a ∈ {0, 1, 2, 4} holds the number of responses a of its unit since LOAD and the sum of their lengths, mod 2^64, while record 3 is {0, 0}. (The kept responses are the model's own account, log 17.)
(Rests on 45_sequencer.md R128, 10_state.md R25, 10_state.md R30, 10_state.md R34, 10_state.md R39.) -/
def Obligations.StepKeepsInvariant : Prop :=
  ∀ s t : State, Safety.Inv s → step s = .next t → Safety.Inv t

/-- For every state with RomInv (the hardware's ROMs, a legal PROG, no unit in FAULT, and every RUN unit at a pc whose path has checked the bytes and written the registers that the rest of its ROM reads), no step stops with a fault, and every next state has RomInv. So OOB_READ, OOB_WRITE, UNWRITTEN and ILLEGAL are unreachable.
(Rests on 70_reset_and_hazards.md R148, 45_sequencer.md R124, 60_exceptions.md R130.) -/
def Obligations.RomsNeverFault : Prop :=
  ∀ s : State, Safety.RomInv s → (∀ f : Fault, step s ≠ .fault f) ∧ ∀ t : State, step s = .next t → Safety.RomInv t

/-- For every build and every agenda, after any number of steps from power-on no unit is in FAULT, and the machine never stops with a fault. (The agenda, which lists any moves in any order, is the model's own, log 8.)
(Rests on 70_reset_and_hazards.md R148, 60_exceptions.md R130.) -/
def Obligations.NoUnitFaultsFromPowerOn : Prop :=
  ∀ (n : Nat) (lenMax : Offset) (cfg : BitVec 4) (ag : List Move) (k : Nat),
    let s : State := { (State.powerOn n lenMax cfg) with agenda := ag }
    (∀ f : Fault, Host.Core.run Sys2Proof.core k s ≠ .fault f) ∧
    ∀ t : State, Host.Core.run Sys2Proof.core k s = .next t →
      ∀ u ∈ t.units, ∀ f, u.st ≠ .fault f

/-- For every accepted request while PROG = 1 and ROM 0 is the drop filter, with no other move to come: within 12 steps the unit is IDLE again and has responded DROP where the closed form of R98 says drop and PASS otherwise, with no target and the frame's own bytes; exactly that action's record gained one packet of len bytes; every other unit is unchanged. The verdict is a function of the frame bytes and CFG alone. (The empty agenda and the turn, which leave the unit to run alone, are the model's own, log 8; so are the kept responses, log 17.)
(Rests on 42_classifier.md R98, 41_walker.md R90, 45_sequencer.md R122, 45_sequencer.md R124, 45_sequencer.md R127.) -/
def Obligations.DropFilterClosedForm : Prop :=
  ∀ (s s1 : State) (r : Request), s.agenda = [] → s.prog = 1 → s.rom0 = romDropFilter → s.submit r = .next s1 →
    ∃ (u y : UnitState) (k : Nat) (t : State) (a : BitVec 3), s.units[r.unit]? = some u ∧ k ≤ 12 ∧
      Host.Core.run Sys2Proof.core k s1 = .next t ∧ t.units[r.unit]? = some y ∧
      (Safety.dropFilterDrops s.cfg r.bytes ∧ a = 1 ∨ ¬ Safety.dropFilterDrops s.cfg r.bytes ∧ a = 2) ∧
      y.st = .idle ∧ y.responses = ⟨a, none, r.bytes⟩ :: u.responses ∧ y.ct = u.ct.count a.toNat r.len ∧
      ∀ v, v ≠ r.unit → t.units[v]? = s.units[v]?

/-- For every accepted request while PROG = 2 and ROM 1 is the forwarder, with no other move to come: within 15 steps the unit is IDLE again and has responded once. If the frame is truncated, unsupported, or its hop count is at most 1, the response is PASS with the frame unchanged, and no lookup is made. Otherwise, with ans the lookup's answer to the query of R102 or R104: rc 1 to 3 gives DROP and rc 4 to 15 PASS, with the frame unchanged; rc 0 gives REDIRECT to ans.oif, or ABORTED with no target where CFG[3] = 1 and the device map misses, and the frame bytes are those of the forwarded frame, of the same length. Exactly the response's record gained one packet of len bytes; every other unit is unchanged. (The empty agenda and the turn, which leave the unit to run alone, are the model's own, log 8; so are the ready and free answers of the lookup and of the device map, logs 11 and 12, and the kept responses, log 17.)
(Rests on 43_forwarder.md R100, 43_forwarder.md R107, 44_rewrite.md R109, 44_rewrite.md R115, 45_sequencer.md R123, 45_sequencer.md R124, 45_sequencer.md R127.) -/
def Obligations.ForwarderClosedForm : Prop :=
  ∀ (s s1 : State) (r : Request), s.agenda = [] → s.prog = 2 → s.rom1 = romForwarder → s.submit r = .next s1 →
    ∃ (u y : UnitState) (k : Nat) (t : State) (a : BitVec 3) (tgt : Option IfId) (f : List Byte),
      s.units[r.unit]? = some u ∧ k ≤ 15 ∧ Host.Core.run Sys2Proof.core k s1 = .next t ∧ t.units[r.unit]? = some y ∧
      y.st = .idle ∧ y.responses = ⟨a, tgt, f⟩ :: u.responses ∧ y.ct = u.ct.count a.toNat r.len ∧
      (∀ v, v ≠ r.unit → t.units[v]? = s.units[v]?) ∧
      match Safety.forwarderLooksUp r.bytes with
      | none => a = 2 ∧ tgt = none ∧ f = r.bytes ∧ y.lookupAnswers = u.lookupAnswers ∧ y.draws = u.draws
      | some (fam, l3) =>
        let ans := u.lookupAnswer r.unit (Safety.queryOf r.bytes fam l3 r.iif)
        if ans.rc = 0 then
          f.length = r.bytes.length ∧
          (∀ i, i < f.length → Safety.byteAt f i = Safety.forwardedByte s.cfg r.bytes fam l3 ans i) ∧
          if s.cfg.getLsbD 3 = true ∧ u.lookupAsked.devmapPresent r.unit ans.oif = false then a = 0 ∧ tgt = none
          else a = 4 ∧ tgt = some ans.oif
        else tgt = none ∧ f = r.bytes ∧ if ans.rc.toNat ≤ 3 then a = 1 else a = 2

/-- For every accepted request with len < 14, with either program attached from the hardware's ROMs and no other move to come, three steps after acceptance the unit is IDLE and has responded PASS, with no target and the frame unchanged. (The empty agenda and the turn are the model's own, log 8; so are the kept responses, log 17.)
(Rests on 40_cursor.md R83, 40_cursor.md R82.) -/
def Obligations.ShortFramesPass : Prop :=
  ∀ (s s1 : State) (r : Request), s.agenda = [] → s.rom0 = romDropFilter → s.rom1 = romForwarder → r.len.toNat < 14 →
    s.submit r = .next s1 →
    ∃ (u y : UnitState) (t : State), s.units[r.unit]? = some u ∧ Host.Core.run Sys2Proof.core 3 s1 = .next t ∧
      t.units[r.unit]? = some y ∧ y.st = .idle ∧ y.responses = ⟨2, none, r.bytes⟩ :: u.responses

/-- With l3 + 20 ≤ end and TTL ≥ 2: if the one's-complement sum of the 20-byte header's ten words is 0xFFFF before DEC4, it is 0xFFFF after, whatever CFG is.
(Rests on 44_rewrite.md R110, 44_rewrite.md R115.) -/
def Obligations.ChecksumStaysCorrect : Prop :=
  ∀ (s t : State) (u y : UnitState) (l e : Offset), s.cur = some u → u.l3 = some l → u.endOff = some e →
    l.toNat + 20 ≤ e.toNat → 2 ≤ (u.frame.read (l.toNat + 8)).toNat →
    Safety.onesSum (Safety.headerSum u.frame l.toNat) = 0xFFFF → exec .dec4 s = .next t → t.cur = some y →
    Safety.onesSum (Safety.headerSum y.frame l.toNat) = 0xFFFF
end

