-- ==== Sys2Proof/Laws/Decode.lean ====
section
/-! SUPPORT. The fields of a packed word. -/

namespace Sys2Proof

@[simp] theorem opField_packWord (op imm : BitVec 8) : opField (packWord op imm) = op := by
  apply BitVec.eq_of_getLsbD_eq
  intro i hi
  have h : ¬ (8 + i < 8) := by omega
  simp [opField, packWord, hi, h, show 8 + i < 16 by omega]

@[simp] theorem immField_packWord (op imm : BitVec 8) : immField (packWord op imm) = imm := by
  apply BitVec.eq_of_getLsbD_eq
  intro i hi
  simp [immField, packWord, hi, show i < 16 by omega]

/-- A word is its two fields packed. -/
theorem packWord_fields (w : Word) : packWord (opField w) (immField w) = w := by
  apply BitVec.eq_of_getLsbD_eq
  intro i hi
  by_cases h : i < 8
  · simp [packWord, opField, immField, h, hi]
  · simp [packWord, opField, immField, h, hi, show i - 8 < 8 by omega, show 8 + (i - 8) = i by omega]

@[simp] theorem targetOperand_setWidth (t : BitVec 6) : targetOperand (t.setWidth 8) = t := by
  revert t; decide

@[simp] theorem setWidth_reserved_bits (t : BitVec 6) : (t.setWidth 8).extractLsb' 6 2 = 0#2 := by
  revert t; decide

end Sys2Proof
end

