-- ==== Sys2Proof/Laws/Memory.lean ====
section
/-! SUPPORT. The laws of the frame space: a byte reads back what was last written there, every other byte is left alone, every
operation keeps the canonical form, and equal contents are equal data. -/

namespace Sys2Proof.Machine

/-! ### One byte -/

@[simp] theorem Memory.read_nil (a : Nat) : Memory.read [] a = 0 := rfl

theorem Memory.read_cons (k : Nat) (b : Byte) (m : Memory) (a : Nat) :
    Memory.read ((k, b) :: m) a = if k = a then b else Memory.read m a := rfl

theorem Memory.read_erase (m : Memory) (a b : Nat) :
    (m.erase a).read b = if b = a then 0 else m.read b := by
  induction m with
  | nil => simp [Memory.erase]
  | cons c m ih =>
    obtain ⟨k, v⟩ := c
    simp only [Memory.erase] at ih ⊢
    by_cases hk : k = a
    · subst hk
      by_cases hb : b = k
      · subst hb; simpa using ih
      · simp [hb, ih, Memory.read_cons, Ne.symm hb]
    · by_cases hb : b = a
      · subst hb
        simp [hk, ih, Memory.read_cons]
      · simp [hk, hb, ih, Memory.read_cons]

/-- `a` is not listed. -/
def Memory.unlistedAt (m : Memory) (a : Nat) : Prop := ∀ c ∈ m, c.1 ≠ a

theorem Memory.erase_unlistedAt (m : Memory) (a : Nat) : (m.erase a).unlistedAt a := by
  intro c hc
  simpa using (List.mem_filter.mp hc).2

theorem Memory.read_insert (m : Memory) (a b : Nat) (v : Byte) (h : m.unlistedAt a) :
    (m.insert a v).read b = if b = a then v else m.read b := by
  induction m with
  | nil => simp [Memory.insert, Memory.read_cons, eq_comm]
  | cons c m ih =>
    obtain ⟨k, w⟩ := c
    have hk : k ≠ a := h (k, w) (by simp)
    have hm : Memory.unlistedAt m a := fun c hc => h c (List.mem_cons_of_mem _ hc)
    by_cases ha : a < k <;> by_cases hb : b = a
    · simp [Memory.insert, ha, hb, Memory.read_cons]
    · simp [Memory.insert, ha, hb, Memory.read_cons, Ne.symm hb]
    · have := ih hm
      subst hb; simpa [Memory.insert, ha, Memory.read_cons, hk] using this
    · have := ih hm
      rw [if_neg hb] at this
      simp [Memory.insert, ha, hb, Memory.read_cons, this]

/-- A byte reads back what was last written there; every other byte reads as before. -/
theorem Memory.read_write (m : Memory) (a b : Nat) (v : Byte) :
    (m.write a v).read b = if b = a then v else m.read b := by
  unfold Memory.write
  split
  · rename_i h; simp [Memory.read_erase, h, Memory.unlisted]
  · rw [Memory.read_insert _ _ _ _ (m.erase_unlistedAt a), Memory.read_erase]
    by_cases hb : b = a <;> simp [hb]

/-! ### Byte strings -/

theorem Memory.read_writeBytes (bs : List Byte) : ∀ (m : Memory) (o b : Nat),
    (m.writeBytes o bs).read b = if o ≤ b ∧ b < o + bs.length then bs.getD (b - o) 0 else m.read b := by
  induction bs with
  | nil => intro m o b; rw [if_neg (by simp only [List.length_nil]; omega)]; rfl
  | cons x bs ih =>
    intro m o b
    rw [Memory.writeBytes, ih, Memory.read_write]
    by_cases hb : b = o
    · subst hb; simp
    · by_cases h : o ≤ b ∧ b < o + (bs.length + 1)
      · have h' : o + 1 ≤ b ∧ b < o + 1 + bs.length := by omega
        have e : b - o = (b - (o + 1)) + 1 := by omega
        simp [h, h', e]
      · have h' : ¬ (o + 1 ≤ b ∧ b < o + 1 + bs.length) := by omega
        rw [if_neg h', if_neg hb, if_neg (by simpa using h)]

theorem Memory.read_writeBytes_outside (m : Memory) (o b : Nat) (bs : List Byte) (h : b < o ∨ o + bs.length ≤ b) :
    (m.writeBytes o bs).read b = m.read b := by
  rw [Memory.read_writeBytes, if_neg (by omega)]

@[simp] theorem Memory.length_bytes (m : Memory) (o n : Nat) : (m.bytes o n).length = n := by
  induction n generalizing o with
  | zero => rfl
  | succ n ih => simp [Memory.bytes, ih]

theorem Memory.getD_bytes (m : Memory) (o n i : Nat) (h : i < n) : (m.bytes o n).getD i 0 = m.read (o + i) := by
  induction n generalizing o i with
  | zero => omega
  | succ n ih =>
    cases i with
    | zero => simp [Memory.bytes]
    | succ i => simpa [Memory.bytes, Nat.add_assoc, Nat.add_comm 1] using ih (o + 1) i (by omega)

/-- The bytes read are determined by the byte reads. -/
theorem Memory.bytes_congr (m m' : Memory) (o n : Nat) (h : ∀ i, o ≤ i → i < o + n → m.read i = m'.read i) :
    m.bytes o n = m'.bytes o n := by
  induction n generalizing o with
  | zero => rfl
  | succ n ih =>
    rw [Memory.bytes, Memory.bytes, h o (by omega) (by omega), ih (o + 1) (fun i h1 h2 => h i (by omega) (by omega))]

theorem Memory.read_ofBytes (bs : List Byte) (i : Nat) : (Memory.ofBytes bs).read i = bs.getD i 0 := by
  rw [Memory.ofBytes, Memory.read_writeBytes]
  by_cases h : i < bs.length
  · simp [h]
  · simp [h]

/-- A frame latched from a byte string gives the same byte string back. -/
@[simp] theorem Memory.bytes_ofBytes (bs : List Byte) : (Memory.ofBytes bs).bytes 0 bs.length = bs := by
  apply List.ext_getElem?
  intro i
  by_cases h : i < bs.length
  · have := Memory.getD_bytes (Memory.ofBytes bs) 0 bs.length i h
    rw [Nat.zero_add, Memory.read_ofBytes] at this
    simpa [List.getD, h] using this
  · simp [h]

/-! ### Big-endian values -/

theorem beValue_one (m : Memory) (o : Nat) : beValue (m.bytes o 1) = (m.read o).toNat := by
  simp [Memory.bytes, beValue]

theorem beValue_two (m : Memory) (o : Nat) :
    beValue (m.bytes o 2) = (m.read o).toNat * 256 + (m.read (o + 1)).toNat := by
  simp [Memory.bytes, beValue]

theorem beValue_four (m : Memory) (o : Nat) :
    beValue (m.bytes o 4) = (((m.read o).toNat * 256 + (m.read (o + 1)).toNat) * 256 + (m.read (o + 2)).toNat) * 256
      + (m.read (o + 3)).toNat := by
  simp only [Memory.bytes, beValue, List.length_cons, List.length_nil, Nat.add_assoc, Nat.reduceAdd]
  omega

theorem beValue_lt (bs : List Byte) : beValue bs < 256 ^ bs.length := by
  induction bs with
  | nil => simp [beValue]
  | cons b bs ih =>
    have hb : b.toNat ≤ 255 := by have := b.isLt; omega
    simp only [beValue, List.length_cons, pow_succ]
    nlinarith [Nat.pos_of_ne_zero (pow_ne_zero bs.length (by decide : (256 : Nat) ≠ 0))]

@[simp] theorem length_beBytes (n v : Nat) : (beBytes n v).length = n := by
  induction n with
  | zero => rfl
  | succ n ih => simp [beBytes, ih]

/-- Byte k of the encoding is v[8(n−1−k)+7 : 8(n−1−k)]. -/
theorem getD_beBytes (n v k : Nat) (h : k < n) : (beBytes n v).getD k 0 = BitVec.ofNat 8 (v / 256 ^ (n - 1 - k)) := by
  induction n generalizing k with
  | zero => omega
  | succ n ih =>
    cases k with
    | zero => simp [beBytes]
    | succ k =>
      have e : n + 1 - 1 - (k + 1) = n - 1 - k := by omega
      rw [e, ← ih k (by omega)]; simp [beBytes]

/-- Reading back an encoding gives the value. -/
theorem beValue_beBytes (n v : Nat) (h : v < 256 ^ n) : beValue (beBytes n v) = v := by
  suffices ∀ n v, beValue (beBytes n v) = v % 256 ^ n by rw [this, Nat.mod_eq_of_lt h]
  intro n v
  induction n with
  | zero => simp [beBytes, beValue, Nat.mod_one]
  | succ n ih =>
    rw [beBytes, beValue, length_beBytes, ih, BitVec.toNat_ofNat, pow_succ (256 : Nat), Nat.mod_mul]
    rw [Nat.mul_comm (256 ^ n), Nat.add_comm]

/-! ### The canonical form -/

theorem Memory.wfFrom_mono {lo lo' : Nat} (m : Memory) (h : lo ≤ lo') (hm : Memory.wfFrom lo' m = true) :
    Memory.wfFrom lo m = true := by
  cases m with
  | nil => rfl
  | cons c m =>
    obtain ⟨k, b⟩ := c
    simp only [Memory.wfFrom, Bool.and_eq_true, decide_eq_true_eq] at hm ⊢
    exact ⟨⟨by omega, hm.1.2⟩, hm.2⟩

theorem Memory.wfFrom_erase (m : Memory) (a : Nat) : ∀ lo, Memory.wfFrom lo m = true → Memory.wfFrom lo (m.erase a) = true := by
  induction m with
  | nil => intro lo h; exact h
  | cons c m ih =>
    intro lo h
    obtain ⟨k, b⟩ := c
    simp only [Memory.wfFrom, Bool.and_eq_true, decide_eq_true_eq] at h
    by_cases hk : k = a
    · have := Memory.wfFrom_mono _ (by omega : lo ≤ k + 1) (ih (k + 1) h.2)
      simpa [Memory.erase, hk] using this
    · have := ih (k + 1) h.2
      simp only [Memory.erase] at this ⊢
      simp [hk, Memory.wfFrom, h.1.1, this]
      simpa using h.1.2

theorem Memory.wfFrom_insert (m : Memory) (a : Nat) (v : Byte) (hv : v ≠ 0) :
    ∀ lo, lo ≤ a → Memory.wfFrom lo m = true → m.unlistedAt a → Memory.wfFrom lo (m.insert a v) = true := by
  induction m with
  | nil => intro lo ha _ _; simpa [Memory.insert, Memory.wfFrom, ha, Memory.unlisted] using hv
  | cons c m ih =>
    intro lo ha h hu
    obtain ⟨k, b⟩ := c
    have hk : k ≠ a := hu (k, b) (by simp)
    have hm : Memory.unlistedAt m a := fun c hc => hu c (List.mem_cons_of_mem _ hc)
    simp only [Memory.wfFrom, Bool.and_eq_true, decide_eq_true_eq] at h
    by_cases hak : a < k
    · simp only [Memory.insert, if_pos hak, Memory.wfFrom, Bool.and_eq_true, decide_eq_true_eq]
      exact ⟨⟨ha, by simpa [Memory.unlisted] using hv⟩, ⟨by omega, h.1.2⟩, h.2⟩
    · simp only [Memory.insert, if_neg hak, Memory.wfFrom, Bool.and_eq_true, decide_eq_true_eq]
      exact ⟨h.1, ih (k + 1) (by omega) h.2 hm⟩

/-- A write keeps the canonical form. -/
theorem Memory.wf_write (m : Memory) (a : Nat) (v : Byte) (h : m.wf = true) : (m.write a v).wf = true := by
  unfold Memory.write
  split
  · exact Memory.wfFrom_erase m a 0 h
  · exact Memory.wfFrom_insert _ a v ‹_› 0 (Nat.zero_le _) (Memory.wfFrom_erase m a 0 h) (m.erase_unlistedAt a)

/-- Writing a byte string keeps the canonical form. -/
theorem Memory.wf_writeBytes (bs : List Byte) : ∀ (m : Memory) (o : Nat), m.wf = true → (m.writeBytes o bs).wf = true := by
  induction bs with
  | nil => intro m o h; exact h
  | cons b bs ih => intro m o h; exact ih _ _ (m.wf_write o b h)

/-- A latched frame has the canonical form. -/
theorem Memory.wf_ofBytes (bs : List Byte) : (Memory.ofBytes bs).wf = true :=
  Memory.wf_writeBytes bs [] 0 rfl

theorem Memory.read_lt_of_wfFrom (m : Memory) : ∀ lo a, Memory.wfFrom lo m = true → a < lo → m.read a = 0 := by
  induction m with
  | nil => intro lo a _ _; rfl
  | cons c m ih =>
    intro lo a h ha
    obtain ⟨k, b⟩ := c
    simp only [Memory.wfFrom, Bool.and_eq_true, decide_eq_true_eq] at h
    rw [Memory.read_cons, if_neg (by omega), ih (k + 1) a h.2 (by omega)]

/-- Two canonical memories that read alike everywhere are the same data. -/
theorem Memory.ext_of_wf {m m' : Memory} (h : m.wf = true) (h' : m'.wf = true) (hr : ∀ a, m.read a = m'.read a) : m = m' := by
  suffices ∀ (m m' : Memory) lo, Memory.wfFrom lo m = true → Memory.wfFrom lo m' = true →
      (∀ a, m.read a = m'.read a) → m = m' from this m m' 0 h h' hr
  clear h h' hr m m'
  have head : ∀ (k : Nat) (b : Byte) (m : Memory) lo, Memory.wfFrom lo ((k, b) :: m) = true → b ≠ 0 := by
    intro k b m lo h
    simp only [Memory.wfFrom, Bool.and_eq_true] at h
    simpa [Memory.unlisted] using h.1.2
  intro m
  induction m with
  | nil =>
    intro m' lo _ h' hr
    cases m' with
    | nil => rfl
    | cons c m' =>
      obtain ⟨k, b⟩ := c
      exact absurd (by simpa [Memory.read_cons] using (hr k).symm) (head k b m' lo h')
  | cons c m ih =>
    intro m' lo h h' hr
    obtain ⟨k, b⟩ := c
    cases m' with
    | nil => exact absurd (by simpa [Memory.read_cons] using hr k) (head k b m lo h)
    | cons c' m' =>
      obtain ⟨k', b'⟩ := c'
      have hb := head k b m lo h
      have hb' := head k' b' m' lo h'
      simp only [Memory.wfFrom, Bool.and_eq_true, decide_eq_true_eq] at h h'
      have key : k = k' := by
        rcases Nat.lt_trichotomy k k' with hlt | heq | hgt
        · have := hr k
          rw [Memory.read_cons, if_pos rfl, Memory.read_cons, if_neg (by omega),
            Memory.read_lt_of_wfFrom m' (k' + 1) k h'.2 (by omega)] at this
          exact absurd this hb
        · exact heq
        · have := hr k'
          rw [Memory.read_cons, if_neg (by omega), Memory.read_cons, if_pos rfl,
            Memory.read_lt_of_wfFrom m (k + 1) k' h.2 (by omega)] at this
          exact absurd this.symm hb'
      subst key
      have hv : b = b' := by simpa [Memory.read_cons] using hr k
      subst hv
      have : m = m' := by
        refine ih m' (k + 1) h.2 h'.2 fun a => ?_
        by_cases ha : k = a
        · rw [Memory.read_lt_of_wfFrom m (k + 1) a h.2 (by omega), Memory.read_lt_of_wfFrom m' (k + 1) a h'.2 (by omega)]
        · simpa [Memory.read_cons, ha] using hr a
      rw [this]

end Sys2Proof.Machine
end

