-- ==== Sys2Proof/Laws/State.lean ====
section
/-! SUPPORT. One lemma per field per update of a unit and of the core, so that no later proof unfolds a record update. -/

namespace Sys2Proof.Machine

/-! ### advance -/

@[simp] theorem UnitState.advance_st (u : UnitState) : (u.advance).st = u.st := rfl
@[simp] theorem UnitState.advance_pc (u : UnitState) : (u.advance).pc = u.pc + 1 := rfl
@[simp] theorem UnitState.advance_frame (u : UnitState) : (u.advance).frame = u.frame := rfl
@[simp] theorem UnitState.advance_len (u : UnitState) : (u.advance).len = u.len := rfl
@[simp] theorem UnitState.advance_iif (u : UnitState) : (u.advance).iif = u.iif := rfl
@[simp] theorem UnitState.advance_pos (u : UnitState) : (u.advance).pos = u.pos := rfl
@[simp] theorem UnitState.advance_endOff (u : UnitState) : (u.advance).endOff = u.endOff := rfl
@[simp] theorem UnitState.advance_l3 (u : UnitState) : (u.advance).l3 = u.l3 := rfl
@[simp] theorem UnitState.advance_proto (u : UnitState) : (u.advance).proto = u.proto := rfl
@[simp] theorem UnitState.advance_vdepth (u : UnitState) : (u.advance).vdepth = u.vdepth := rfl
@[simp] theorem UnitState.advance_act (u : UnitState) : (u.advance).act = u.act := rfl
@[simp] theorem UnitState.advance_cause (u : UnitState) : (u.advance).cause = u.cause := rfl
@[simp] theorem UnitState.advance_tgt (u : UnitState) : (u.advance).tgt = u.tgt := rfl
@[simp] theorem UnitState.advance_q (u : UnitState) : (u.advance).q = u.q := rfl
@[simp] theorem UnitState.advance_r (u : UnitState) : (u.advance).r = u.r := rfl
@[simp] theorem UnitState.advance_ct (u : UnitState) : (u.advance).ct = u.ct := rfl
@[simp] theorem UnitState.advance_responses (u : UnitState) : (u.advance).responses = u.responses := rfl
@[simp] theorem UnitState.advance_lookupAnswers (u : UnitState) : (u.advance).lookupAnswers = u.lookupAnswers := rfl
@[simp] theorem UnitState.advance_devmapAnswers (u : UnitState) : (u.advance).devmapAnswers = u.devmapAnswers := rfl
@[simp] theorem UnitState.advance_draws (u : UnitState) : (u.advance).draws = u.draws := rfl

/-! ### resolve -/

@[simp] theorem UnitState.resolve_st (u : UnitState) (a : BitVec 3) (c : BitVec 4) : (u.resolve a c).st = u.st := rfl
@[simp] theorem UnitState.resolve_pc (u : UnitState) (a : BitVec 3) (c : BitVec 4) : (u.resolve a c).pc = finPc := rfl
@[simp] theorem UnitState.resolve_frame (u : UnitState) (a : BitVec 3) (c : BitVec 4) : (u.resolve a c).frame = u.frame := rfl
@[simp] theorem UnitState.resolve_len (u : UnitState) (a : BitVec 3) (c : BitVec 4) : (u.resolve a c).len = u.len := rfl
@[simp] theorem UnitState.resolve_iif (u : UnitState) (a : BitVec 3) (c : BitVec 4) : (u.resolve a c).iif = u.iif := rfl
@[simp] theorem UnitState.resolve_pos (u : UnitState) (a : BitVec 3) (c : BitVec 4) : (u.resolve a c).pos = u.pos := rfl
@[simp] theorem UnitState.resolve_endOff (u : UnitState) (a : BitVec 3) (c : BitVec 4) : (u.resolve a c).endOff = u.endOff := rfl
@[simp] theorem UnitState.resolve_l3 (u : UnitState) (a : BitVec 3) (c : BitVec 4) : (u.resolve a c).l3 = u.l3 := rfl
@[simp] theorem UnitState.resolve_proto (u : UnitState) (a : BitVec 3) (c : BitVec 4) : (u.resolve a c).proto = u.proto := rfl
@[simp] theorem UnitState.resolve_vdepth (u : UnitState) (a : BitVec 3) (c : BitVec 4) : (u.resolve a c).vdepth = u.vdepth := rfl
@[simp] theorem UnitState.resolve_act (u : UnitState) (a : BitVec 3) (c : BitVec 4) : (u.resolve a c).act = some a := rfl
@[simp] theorem UnitState.resolve_cause (u : UnitState) (a : BitVec 3) (c : BitVec 4) : (u.resolve a c).cause = some c := rfl
@[simp] theorem UnitState.resolve_tgt (u : UnitState) (a : BitVec 3) (c : BitVec 4) : (u.resolve a c).tgt = u.tgt := rfl
@[simp] theorem UnitState.resolve_q (u : UnitState) (a : BitVec 3) (c : BitVec 4) : (u.resolve a c).q = u.q := rfl
@[simp] theorem UnitState.resolve_r (u : UnitState) (a : BitVec 3) (c : BitVec 4) : (u.resolve a c).r = u.r := rfl
@[simp] theorem UnitState.resolve_ct (u : UnitState) (a : BitVec 3) (c : BitVec 4) : (u.resolve a c).ct = u.ct := rfl
@[simp] theorem UnitState.resolve_responses (u : UnitState) (a : BitVec 3) (c : BitVec 4) : (u.resolve a c).responses = u.responses := rfl
@[simp] theorem UnitState.resolve_lookupAnswers (u : UnitState) (a : BitVec 3) (c : BitVec 4) : (u.resolve a c).lookupAnswers = u.lookupAnswers := rfl
@[simp] theorem UnitState.resolve_devmapAnswers (u : UnitState) (a : BitVec 3) (c : BitVec 4) : (u.resolve a c).devmapAnswers = u.devmapAnswers := rfl
@[simp] theorem UnitState.resolve_draws (u : UnitState) (a : BitVec 3) (c : BitVec 4) : (u.resolve a c).draws = u.draws := rfl

/-! ### raise -/

@[simp] theorem UnitState.raise_st (u : UnitState) (f : FaultReason) : (u.raise f).st = .fault f := rfl
@[simp] theorem UnitState.raise_pc (u : UnitState) (f : FaultReason) : (u.raise f).pc = u.pc := rfl
@[simp] theorem UnitState.raise_frame (u : UnitState) (f : FaultReason) : (u.raise f).frame = u.frame := rfl
@[simp] theorem UnitState.raise_len (u : UnitState) (f : FaultReason) : (u.raise f).len = u.len := rfl
@[simp] theorem UnitState.raise_iif (u : UnitState) (f : FaultReason) : (u.raise f).iif = u.iif := rfl
@[simp] theorem UnitState.raise_pos (u : UnitState) (f : FaultReason) : (u.raise f).pos = u.pos := rfl
@[simp] theorem UnitState.raise_endOff (u : UnitState) (f : FaultReason) : (u.raise f).endOff = u.endOff := rfl
@[simp] theorem UnitState.raise_l3 (u : UnitState) (f : FaultReason) : (u.raise f).l3 = u.l3 := rfl
@[simp] theorem UnitState.raise_proto (u : UnitState) (f : FaultReason) : (u.raise f).proto = u.proto := rfl
@[simp] theorem UnitState.raise_vdepth (u : UnitState) (f : FaultReason) : (u.raise f).vdepth = u.vdepth := rfl
@[simp] theorem UnitState.raise_act (u : UnitState) (f : FaultReason) : (u.raise f).act = u.act := rfl
@[simp] theorem UnitState.raise_cause (u : UnitState) (f : FaultReason) : (u.raise f).cause = u.cause := rfl
@[simp] theorem UnitState.raise_tgt (u : UnitState) (f : FaultReason) : (u.raise f).tgt = u.tgt := rfl
@[simp] theorem UnitState.raise_q (u : UnitState) (f : FaultReason) : (u.raise f).q = u.q := rfl
@[simp] theorem UnitState.raise_r (u : UnitState) (f : FaultReason) : (u.raise f).r = u.r := rfl
@[simp] theorem UnitState.raise_ct (u : UnitState) (f : FaultReason) : (u.raise f).ct = u.ct := rfl
@[simp] theorem UnitState.raise_responses (u : UnitState) (f : FaultReason) : (u.raise f).responses = u.responses := rfl
@[simp] theorem UnitState.raise_lookupAnswers (u : UnitState) (f : FaultReason) : (u.raise f).lookupAnswers = u.lookupAnswers := rfl
@[simp] theorem UnitState.raise_devmapAnswers (u : UnitState) (f : FaultReason) : (u.raise f).devmapAnswers = u.devmapAnswers := rfl
@[simp] theorem UnitState.raise_draws (u : UnitState) (f : FaultReason) : (u.raise f).draws = u.draws := rfl

/-! ### respond -/

@[simp] theorem UnitState.respond_st (u : UnitState) (out : BitVec 3) (t : Option IfId) : (u.respond out t).st = .idle := rfl
@[simp] theorem UnitState.respond_pc (u : UnitState) (out : BitVec 3) (t : Option IfId) : (u.respond out t).pc = u.pc := rfl
@[simp] theorem UnitState.respond_frame (u : UnitState) (out : BitVec 3) (t : Option IfId) : (u.respond out t).frame = u.frame := rfl
@[simp] theorem UnitState.respond_len (u : UnitState) (out : BitVec 3) (t : Option IfId) : (u.respond out t).len = u.len := rfl
@[simp] theorem UnitState.respond_iif (u : UnitState) (out : BitVec 3) (t : Option IfId) : (u.respond out t).iif = u.iif := rfl
@[simp] theorem UnitState.respond_pos (u : UnitState) (out : BitVec 3) (t : Option IfId) : (u.respond out t).pos = u.pos := rfl
@[simp] theorem UnitState.respond_endOff (u : UnitState) (out : BitVec 3) (t : Option IfId) : (u.respond out t).endOff = u.endOff := rfl
@[simp] theorem UnitState.respond_l3 (u : UnitState) (out : BitVec 3) (t : Option IfId) : (u.respond out t).l3 = u.l3 := rfl
@[simp] theorem UnitState.respond_proto (u : UnitState) (out : BitVec 3) (t : Option IfId) : (u.respond out t).proto = u.proto := rfl
@[simp] theorem UnitState.respond_vdepth (u : UnitState) (out : BitVec 3) (t : Option IfId) : (u.respond out t).vdepth = u.vdepth := rfl
@[simp] theorem UnitState.respond_act (u : UnitState) (out : BitVec 3) (t : Option IfId) : (u.respond out t).act = u.act := rfl
@[simp] theorem UnitState.respond_cause (u : UnitState) (out : BitVec 3) (t : Option IfId) : (u.respond out t).cause = u.cause := rfl
@[simp] theorem UnitState.respond_tgt (u : UnitState) (out : BitVec 3) (t : Option IfId) : (u.respond out t).tgt = u.tgt := rfl
@[simp] theorem UnitState.respond_q (u : UnitState) (out : BitVec 3) (t : Option IfId) : (u.respond out t).q = u.q := rfl
@[simp] theorem UnitState.respond_r (u : UnitState) (out : BitVec 3) (t : Option IfId) : (u.respond out t).r = u.r := rfl
@[simp] theorem UnitState.respond_ct (u : UnitState) (out : BitVec 3) (t : Option IfId) : (u.respond out t).ct = u.ct := rfl
@[simp] theorem UnitState.respond_responses (u : UnitState) (out : BitVec 3) (t : Option IfId) : (u.respond out t).responses = ⟨out, t, u.frame.bytes 0 u.len.toNat⟩ :: u.responses := rfl
@[simp] theorem UnitState.respond_lookupAnswers (u : UnitState) (out : BitVec 3) (t : Option IfId) : (u.respond out t).lookupAnswers = u.lookupAnswers := rfl
@[simp] theorem UnitState.respond_devmapAnswers (u : UnitState) (out : BitVec 3) (t : Option IfId) : (u.respond out t).devmapAnswers = u.devmapAnswers := rfl
@[simp] theorem UnitState.respond_draws (u : UnitState) (out : BitVec 3) (t : Option IfId) : (u.respond out t).draws = u.draws := rfl

/-! ### redirectTo -/

@[simp] theorem UnitState.redirectTo_st (u : UnitState) (oif : IfId) : (u.redirectTo oif).st = u.st := rfl
@[simp] theorem UnitState.redirectTo_pc (u : UnitState) (oif : IfId) : (u.redirectTo oif).pc = finPc := rfl
@[simp] theorem UnitState.redirectTo_frame (u : UnitState) (oif : IfId) : (u.redirectTo oif).frame = u.frame := rfl
@[simp] theorem UnitState.redirectTo_len (u : UnitState) (oif : IfId) : (u.redirectTo oif).len = u.len := rfl
@[simp] theorem UnitState.redirectTo_iif (u : UnitState) (oif : IfId) : (u.redirectTo oif).iif = u.iif := rfl
@[simp] theorem UnitState.redirectTo_pos (u : UnitState) (oif : IfId) : (u.redirectTo oif).pos = u.pos := rfl
@[simp] theorem UnitState.redirectTo_endOff (u : UnitState) (oif : IfId) : (u.redirectTo oif).endOff = u.endOff := rfl
@[simp] theorem UnitState.redirectTo_l3 (u : UnitState) (oif : IfId) : (u.redirectTo oif).l3 = u.l3 := rfl
@[simp] theorem UnitState.redirectTo_proto (u : UnitState) (oif : IfId) : (u.redirectTo oif).proto = u.proto := rfl
@[simp] theorem UnitState.redirectTo_vdepth (u : UnitState) (oif : IfId) : (u.redirectTo oif).vdepth = u.vdepth := rfl
@[simp] theorem UnitState.redirectTo_act (u : UnitState) (oif : IfId) : (u.redirectTo oif).act = some actRedirect := rfl
@[simp] theorem UnitState.redirectTo_cause (u : UnitState) (oif : IfId) : (u.redirectTo oif).cause = some causeForwarded := rfl
@[simp] theorem UnitState.redirectTo_tgt (u : UnitState) (oif : IfId) : (u.redirectTo oif).tgt = some oif := rfl
@[simp] theorem UnitState.redirectTo_q (u : UnitState) (oif : IfId) : (u.redirectTo oif).q = u.q := rfl
@[simp] theorem UnitState.redirectTo_r (u : UnitState) (oif : IfId) : (u.redirectTo oif).r = u.r := rfl
@[simp] theorem UnitState.redirectTo_ct (u : UnitState) (oif : IfId) : (u.redirectTo oif).ct = u.ct := rfl
@[simp] theorem UnitState.redirectTo_responses (u : UnitState) (oif : IfId) : (u.redirectTo oif).responses = u.responses := rfl
@[simp] theorem UnitState.redirectTo_lookupAnswers (u : UnitState) (oif : IfId) : (u.redirectTo oif).lookupAnswers = u.lookupAnswers := rfl
@[simp] theorem UnitState.redirectTo_devmapAnswers (u : UnitState) (oif : IfId) : (u.redirectTo oif).devmapAnswers = u.devmapAnswers := rfl
@[simp] theorem UnitState.redirectTo_draws (u : UnitState) (oif : IfId) : (u.redirectTo oif).draws = u.draws := rfl

/-! ### unwriteAll, start and load -/

@[simp] theorem UnitState.unwriteAll_st (u : UnitState) : (u.unwriteAll).st = u.st := rfl
@[simp] theorem UnitState.unwriteAll_pc (u : UnitState) : (u.unwriteAll).pc = u.pc := rfl
@[simp] theorem UnitState.unwriteAll_frame (u : UnitState) : (u.unwriteAll).frame = u.frame := rfl
@[simp] theorem UnitState.unwriteAll_len (u : UnitState) : (u.unwriteAll).len = u.len := rfl
@[simp] theorem UnitState.unwriteAll_iif (u : UnitState) : (u.unwriteAll).iif = u.iif := rfl
@[simp] theorem UnitState.unwriteAll_pos (u : UnitState) : (u.unwriteAll).pos = none := rfl
@[simp] theorem UnitState.unwriteAll_endOff (u : UnitState) : (u.unwriteAll).endOff = none := rfl
@[simp] theorem UnitState.unwriteAll_l3 (u : UnitState) : (u.unwriteAll).l3 = none := rfl
@[simp] theorem UnitState.unwriteAll_proto (u : UnitState) : (u.unwriteAll).proto = none := rfl
@[simp] theorem UnitState.unwriteAll_vdepth (u : UnitState) : (u.unwriteAll).vdepth = none := rfl
@[simp] theorem UnitState.unwriteAll_act (u : UnitState) : (u.unwriteAll).act = none := rfl
@[simp] theorem UnitState.unwriteAll_cause (u : UnitState) : (u.unwriteAll).cause = none := rfl
@[simp] theorem UnitState.unwriteAll_tgt (u : UnitState) : (u.unwriteAll).tgt = none := rfl
@[simp] theorem UnitState.unwriteAll_q (u : UnitState) : (u.unwriteAll).q = none := rfl
@[simp] theorem UnitState.unwriteAll_r (u : UnitState) : (u.unwriteAll).r = none := rfl
@[simp] theorem UnitState.unwriteAll_ct (u : UnitState) : (u.unwriteAll).ct = u.ct := rfl
@[simp] theorem UnitState.unwriteAll_responses (u : UnitState) : (u.unwriteAll).responses = u.responses := rfl
@[simp] theorem UnitState.unwriteAll_lookupAnswers (u : UnitState) : (u.unwriteAll).lookupAnswers = u.lookupAnswers := rfl
@[simp] theorem UnitState.unwriteAll_devmapAnswers (u : UnitState) : (u.unwriteAll).devmapAnswers = u.devmapAnswers := rfl
@[simp] theorem UnitState.unwriteAll_draws (u : UnitState) : (u.unwriteAll).draws = u.draws := rfl

@[simp] theorem UnitState.start_st (u : UnitState) (x : Request) : (u.start x).st = .run := rfl
@[simp] theorem UnitState.start_pc (u : UnitState) (x : Request) : (u.start x).pc = 0 := rfl
@[simp] theorem UnitState.start_frame (u : UnitState) (x : Request) : (u.start x).frame = Memory.ofBytes x.bytes := rfl
@[simp] theorem UnitState.start_len (u : UnitState) (x : Request) : (u.start x).len = x.len := rfl
@[simp] theorem UnitState.start_iif (u : UnitState) (x : Request) : (u.start x).iif = x.iif := rfl
@[simp] theorem UnitState.start_pos (u : UnitState) (x : Request) : (u.start x).pos = none := rfl
@[simp] theorem UnitState.start_endOff (u : UnitState) (x : Request) : (u.start x).endOff = none := rfl
@[simp] theorem UnitState.start_l3 (u : UnitState) (x : Request) : (u.start x).l3 = none := rfl
@[simp] theorem UnitState.start_proto (u : UnitState) (x : Request) : (u.start x).proto = none := rfl
@[simp] theorem UnitState.start_vdepth (u : UnitState) (x : Request) : (u.start x).vdepth = none := rfl
@[simp] theorem UnitState.start_act (u : UnitState) (x : Request) : (u.start x).act = none := rfl
@[simp] theorem UnitState.start_cause (u : UnitState) (x : Request) : (u.start x).cause = none := rfl
@[simp] theorem UnitState.start_tgt (u : UnitState) (x : Request) : (u.start x).tgt = none := rfl
@[simp] theorem UnitState.start_q (u : UnitState) (x : Request) : (u.start x).q = none := rfl
@[simp] theorem UnitState.start_r (u : UnitState) (x : Request) : (u.start x).r = none := rfl
@[simp] theorem UnitState.start_ct (u : UnitState) (x : Request) : (u.start x).ct = u.ct := rfl
@[simp] theorem UnitState.start_responses (u : UnitState) (x : Request) : (u.start x).responses = u.responses := rfl
@[simp] theorem UnitState.start_lookupAnswers (u : UnitState) (x : Request) : (u.start x).lookupAnswers = u.lookupAnswers := rfl
@[simp] theorem UnitState.start_devmapAnswers (u : UnitState) (x : Request) : (u.start x).devmapAnswers = u.devmapAnswers := rfl
@[simp] theorem UnitState.start_draws (u : UnitState) (x : Request) : (u.start x).draws = u.draws := rfl

@[simp] theorem UnitState.load_st (u : UnitState) : (u.load).st = u.st := rfl
@[simp] theorem UnitState.load_pc (u : UnitState) : (u.load).pc = u.pc := rfl
@[simp] theorem UnitState.load_frame (u : UnitState) : (u.load).frame = [] := rfl
@[simp] theorem UnitState.load_len (u : UnitState) : (u.load).len = 0 := rfl
@[simp] theorem UnitState.load_iif (u : UnitState) : (u.load).iif = 0 := rfl
@[simp] theorem UnitState.load_pos (u : UnitState) : (u.load).pos = none := rfl
@[simp] theorem UnitState.load_endOff (u : UnitState) : (u.load).endOff = none := rfl
@[simp] theorem UnitState.load_l3 (u : UnitState) : (u.load).l3 = none := rfl
@[simp] theorem UnitState.load_proto (u : UnitState) : (u.load).proto = none := rfl
@[simp] theorem UnitState.load_vdepth (u : UnitState) : (u.load).vdepth = none := rfl
@[simp] theorem UnitState.load_act (u : UnitState) : (u.load).act = none := rfl
@[simp] theorem UnitState.load_cause (u : UnitState) : (u.load).cause = none := rfl
@[simp] theorem UnitState.load_tgt (u : UnitState) : (u.load).tgt = none := rfl
@[simp] theorem UnitState.load_q (u : UnitState) : (u.load).q = none := rfl
@[simp] theorem UnitState.load_r (u : UnitState) : (u.load).r = none := rfl
@[simp] theorem UnitState.load_ct (u : UnitState) : (u.load).ct = Slice.zero := rfl
@[simp] theorem UnitState.load_responses (u : UnitState) : (u.load).responses = [] := rfl
@[simp] theorem UnitState.load_lookupAnswers (u : UnitState) : (u.load).lookupAnswers = u.lookupAnswers := rfl
@[simp] theorem UnitState.load_devmapAnswers (u : UnitState) : (u.load).devmapAnswers = u.devmapAnswers := rfl
@[simp] theorem UnitState.load_draws (u : UnitState) : (u.load).draws = u.draws := rfl

/-! ### setPos, incVdepth, hopAsked, lookupAsked and devmapAsked: every field but the one written and draws -/

@[simp] theorem UnitState.setPos_st (u : UnitState) (unit v : Nat) : (u.setPos unit v).st = u.st := by
  unfold UnitState.setPos; split <;> rfl
@[simp] theorem UnitState.setPos_pc (u : UnitState) (unit v : Nat) : (u.setPos unit v).pc = u.pc := by
  unfold UnitState.setPos; split <;> rfl
@[simp] theorem UnitState.setPos_frame (u : UnitState) (unit v : Nat) : (u.setPos unit v).frame = u.frame := by
  unfold UnitState.setPos; split <;> rfl
@[simp] theorem UnitState.setPos_len (u : UnitState) (unit v : Nat) : (u.setPos unit v).len = u.len := by
  unfold UnitState.setPos; split <;> rfl
@[simp] theorem UnitState.setPos_iif (u : UnitState) (unit v : Nat) : (u.setPos unit v).iif = u.iif := by
  unfold UnitState.setPos; split <;> rfl
@[simp] theorem UnitState.setPos_endOff (u : UnitState) (unit v : Nat) : (u.setPos unit v).endOff = u.endOff := by
  unfold UnitState.setPos; split <;> rfl
@[simp] theorem UnitState.setPos_l3 (u : UnitState) (unit v : Nat) : (u.setPos unit v).l3 = u.l3 := by
  unfold UnitState.setPos; split <;> rfl
@[simp] theorem UnitState.setPos_proto (u : UnitState) (unit v : Nat) : (u.setPos unit v).proto = u.proto := by
  unfold UnitState.setPos; split <;> rfl
@[simp] theorem UnitState.setPos_vdepth (u : UnitState) (unit v : Nat) : (u.setPos unit v).vdepth = u.vdepth := by
  unfold UnitState.setPos; split <;> rfl
@[simp] theorem UnitState.setPos_act (u : UnitState) (unit v : Nat) : (u.setPos unit v).act = u.act := by
  unfold UnitState.setPos; split <;> rfl
@[simp] theorem UnitState.setPos_cause (u : UnitState) (unit v : Nat) : (u.setPos unit v).cause = u.cause := by
  unfold UnitState.setPos; split <;> rfl
@[simp] theorem UnitState.setPos_tgt (u : UnitState) (unit v : Nat) : (u.setPos unit v).tgt = u.tgt := by
  unfold UnitState.setPos; split <;> rfl
@[simp] theorem UnitState.setPos_q (u : UnitState) (unit v : Nat) : (u.setPos unit v).q = u.q := by
  unfold UnitState.setPos; split <;> rfl
@[simp] theorem UnitState.setPos_r (u : UnitState) (unit v : Nat) : (u.setPos unit v).r = u.r := by
  unfold UnitState.setPos; split <;> rfl
@[simp] theorem UnitState.setPos_ct (u : UnitState) (unit v : Nat) : (u.setPos unit v).ct = u.ct := by
  unfold UnitState.setPos; split <;> rfl
@[simp] theorem UnitState.setPos_responses (u : UnitState) (unit v : Nat) : (u.setPos unit v).responses = u.responses := by
  unfold UnitState.setPos; split <;> rfl
@[simp] theorem UnitState.setPos_lookupAnswers (u : UnitState) (unit v : Nat) : (u.setPos unit v).lookupAnswers = u.lookupAnswers := by
  unfold UnitState.setPos; split <;> rfl
@[simp] theorem UnitState.setPos_devmapAnswers (u : UnitState) (unit v : Nat) : (u.setPos unit v).devmapAnswers = u.devmapAnswers := by
  unfold UnitState.setPos; split <;> rfl

@[simp] theorem UnitState.incVdepth_st (u : UnitState) (unit : Nat) (d : BitVec 2) : (u.incVdepth unit d).st = u.st := by
  unfold UnitState.incVdepth; split <;> rfl
@[simp] theorem UnitState.incVdepth_pc (u : UnitState) (unit : Nat) (d : BitVec 2) : (u.incVdepth unit d).pc = u.pc := by
  unfold UnitState.incVdepth; split <;> rfl
@[simp] theorem UnitState.incVdepth_frame (u : UnitState) (unit : Nat) (d : BitVec 2) : (u.incVdepth unit d).frame = u.frame := by
  unfold UnitState.incVdepth; split <;> rfl
@[simp] theorem UnitState.incVdepth_len (u : UnitState) (unit : Nat) (d : BitVec 2) : (u.incVdepth unit d).len = u.len := by
  unfold UnitState.incVdepth; split <;> rfl
@[simp] theorem UnitState.incVdepth_iif (u : UnitState) (unit : Nat) (d : BitVec 2) : (u.incVdepth unit d).iif = u.iif := by
  unfold UnitState.incVdepth; split <;> rfl
@[simp] theorem UnitState.incVdepth_pos (u : UnitState) (unit : Nat) (d : BitVec 2) : (u.incVdepth unit d).pos = u.pos := by
  unfold UnitState.incVdepth; split <;> rfl
@[simp] theorem UnitState.incVdepth_endOff (u : UnitState) (unit : Nat) (d : BitVec 2) : (u.incVdepth unit d).endOff = u.endOff := by
  unfold UnitState.incVdepth; split <;> rfl
@[simp] theorem UnitState.incVdepth_l3 (u : UnitState) (unit : Nat) (d : BitVec 2) : (u.incVdepth unit d).l3 = u.l3 := by
  unfold UnitState.incVdepth; split <;> rfl
@[simp] theorem UnitState.incVdepth_proto (u : UnitState) (unit : Nat) (d : BitVec 2) : (u.incVdepth unit d).proto = u.proto := by
  unfold UnitState.incVdepth; split <;> rfl
@[simp] theorem UnitState.incVdepth_act (u : UnitState) (unit : Nat) (d : BitVec 2) : (u.incVdepth unit d).act = u.act := by
  unfold UnitState.incVdepth; split <;> rfl
@[simp] theorem UnitState.incVdepth_cause (u : UnitState) (unit : Nat) (d : BitVec 2) : (u.incVdepth unit d).cause = u.cause := by
  unfold UnitState.incVdepth; split <;> rfl
@[simp] theorem UnitState.incVdepth_tgt (u : UnitState) (unit : Nat) (d : BitVec 2) : (u.incVdepth unit d).tgt = u.tgt := by
  unfold UnitState.incVdepth; split <;> rfl
@[simp] theorem UnitState.incVdepth_q (u : UnitState) (unit : Nat) (d : BitVec 2) : (u.incVdepth unit d).q = u.q := by
  unfold UnitState.incVdepth; split <;> rfl
@[simp] theorem UnitState.incVdepth_r (u : UnitState) (unit : Nat) (d : BitVec 2) : (u.incVdepth unit d).r = u.r := by
  unfold UnitState.incVdepth; split <;> rfl
@[simp] theorem UnitState.incVdepth_ct (u : UnitState) (unit : Nat) (d : BitVec 2) : (u.incVdepth unit d).ct = u.ct := by
  unfold UnitState.incVdepth; split <;> rfl
@[simp] theorem UnitState.incVdepth_responses (u : UnitState) (unit : Nat) (d : BitVec 2) : (u.incVdepth unit d).responses = u.responses := by
  unfold UnitState.incVdepth; split <;> rfl
@[simp] theorem UnitState.incVdepth_lookupAnswers (u : UnitState) (unit : Nat) (d : BitVec 2) : (u.incVdepth unit d).lookupAnswers = u.lookupAnswers := by
  unfold UnitState.incVdepth; split <;> rfl
@[simp] theorem UnitState.incVdepth_devmapAnswers (u : UnitState) (unit : Nat) (d : BitVec 2) : (u.incVdepth unit d).devmapAnswers = u.devmapAnswers := by
  unfold UnitState.incVdepth; split <;> rfl

@[simp] theorem UnitState.hopAsked_st (u : UnitState) (h : Nat) : (u.hopAsked h).st = u.st := by
  unfold UnitState.hopAsked; split <;> rfl
@[simp] theorem UnitState.hopAsked_pc (u : UnitState) (h : Nat) : (u.hopAsked h).pc = u.pc := by
  unfold UnitState.hopAsked; split <;> rfl
@[simp] theorem UnitState.hopAsked_frame (u : UnitState) (h : Nat) : (u.hopAsked h).frame = u.frame := by
  unfold UnitState.hopAsked; split <;> rfl
@[simp] theorem UnitState.hopAsked_len (u : UnitState) (h : Nat) : (u.hopAsked h).len = u.len := by
  unfold UnitState.hopAsked; split <;> rfl
@[simp] theorem UnitState.hopAsked_iif (u : UnitState) (h : Nat) : (u.hopAsked h).iif = u.iif := by
  unfold UnitState.hopAsked; split <;> rfl
@[simp] theorem UnitState.hopAsked_pos (u : UnitState) (h : Nat) : (u.hopAsked h).pos = u.pos := by
  unfold UnitState.hopAsked; split <;> rfl
@[simp] theorem UnitState.hopAsked_endOff (u : UnitState) (h : Nat) : (u.hopAsked h).endOff = u.endOff := by
  unfold UnitState.hopAsked; split <;> rfl
@[simp] theorem UnitState.hopAsked_l3 (u : UnitState) (h : Nat) : (u.hopAsked h).l3 = u.l3 := by
  unfold UnitState.hopAsked; split <;> rfl
@[simp] theorem UnitState.hopAsked_proto (u : UnitState) (h : Nat) : (u.hopAsked h).proto = u.proto := by
  unfold UnitState.hopAsked; split <;> rfl
@[simp] theorem UnitState.hopAsked_vdepth (u : UnitState) (h : Nat) : (u.hopAsked h).vdepth = u.vdepth := by
  unfold UnitState.hopAsked; split <;> rfl
@[simp] theorem UnitState.hopAsked_act (u : UnitState) (h : Nat) : (u.hopAsked h).act = u.act := by
  unfold UnitState.hopAsked; split <;> rfl
@[simp] theorem UnitState.hopAsked_cause (u : UnitState) (h : Nat) : (u.hopAsked h).cause = u.cause := by
  unfold UnitState.hopAsked; split <;> rfl
@[simp] theorem UnitState.hopAsked_tgt (u : UnitState) (h : Nat) : (u.hopAsked h).tgt = u.tgt := by
  unfold UnitState.hopAsked; split <;> rfl
@[simp] theorem UnitState.hopAsked_q (u : UnitState) (h : Nat) : (u.hopAsked h).q = u.q := by
  unfold UnitState.hopAsked; split <;> rfl
@[simp] theorem UnitState.hopAsked_r (u : UnitState) (h : Nat) : (u.hopAsked h).r = u.r := by
  unfold UnitState.hopAsked; split <;> rfl
@[simp] theorem UnitState.hopAsked_ct (u : UnitState) (h : Nat) : (u.hopAsked h).ct = u.ct := by
  unfold UnitState.hopAsked; split <;> rfl
@[simp] theorem UnitState.hopAsked_responses (u : UnitState) (h : Nat) : (u.hopAsked h).responses = u.responses := by
  unfold UnitState.hopAsked; split <;> rfl
@[simp] theorem UnitState.hopAsked_lookupAnswers (u : UnitState) (h : Nat) : (u.hopAsked h).lookupAnswers = u.lookupAnswers := by
  unfold UnitState.hopAsked; split <;> rfl
@[simp] theorem UnitState.hopAsked_devmapAnswers (u : UnitState) (h : Nat) : (u.hopAsked h).devmapAnswers = u.devmapAnswers := by
  unfold UnitState.hopAsked; split <;> rfl

@[simp] theorem UnitState.lookupAsked_st (u : UnitState) : (u.lookupAsked).st = u.st := by
  unfold UnitState.lookupAsked; split <;> rfl
@[simp] theorem UnitState.lookupAsked_pc (u : UnitState) : (u.lookupAsked).pc = u.pc := by
  unfold UnitState.lookupAsked; split <;> rfl
@[simp] theorem UnitState.lookupAsked_frame (u : UnitState) : (u.lookupAsked).frame = u.frame := by
  unfold UnitState.lookupAsked; split <;> rfl
@[simp] theorem UnitState.lookupAsked_len (u : UnitState) : (u.lookupAsked).len = u.len := by
  unfold UnitState.lookupAsked; split <;> rfl
@[simp] theorem UnitState.lookupAsked_iif (u : UnitState) : (u.lookupAsked).iif = u.iif := by
  unfold UnitState.lookupAsked; split <;> rfl
@[simp] theorem UnitState.lookupAsked_pos (u : UnitState) : (u.lookupAsked).pos = u.pos := by
  unfold UnitState.lookupAsked; split <;> rfl
@[simp] theorem UnitState.lookupAsked_endOff (u : UnitState) : (u.lookupAsked).endOff = u.endOff := by
  unfold UnitState.lookupAsked; split <;> rfl
@[simp] theorem UnitState.lookupAsked_l3 (u : UnitState) : (u.lookupAsked).l3 = u.l3 := by
  unfold UnitState.lookupAsked; split <;> rfl
@[simp] theorem UnitState.lookupAsked_proto (u : UnitState) : (u.lookupAsked).proto = u.proto := by
  unfold UnitState.lookupAsked; split <;> rfl
@[simp] theorem UnitState.lookupAsked_vdepth (u : UnitState) : (u.lookupAsked).vdepth = u.vdepth := by
  unfold UnitState.lookupAsked; split <;> rfl
@[simp] theorem UnitState.lookupAsked_act (u : UnitState) : (u.lookupAsked).act = u.act := by
  unfold UnitState.lookupAsked; split <;> rfl
@[simp] theorem UnitState.lookupAsked_cause (u : UnitState) : (u.lookupAsked).cause = u.cause := by
  unfold UnitState.lookupAsked; split <;> rfl
@[simp] theorem UnitState.lookupAsked_tgt (u : UnitState) : (u.lookupAsked).tgt = u.tgt := by
  unfold UnitState.lookupAsked; split <;> rfl
@[simp] theorem UnitState.lookupAsked_q (u : UnitState) : (u.lookupAsked).q = u.q := by
  unfold UnitState.lookupAsked; split <;> rfl
@[simp] theorem UnitState.lookupAsked_r (u : UnitState) : (u.lookupAsked).r = u.r := by
  unfold UnitState.lookupAsked; split <;> rfl
@[simp] theorem UnitState.lookupAsked_ct (u : UnitState) : (u.lookupAsked).ct = u.ct := by
  unfold UnitState.lookupAsked; split <;> rfl
@[simp] theorem UnitState.lookupAsked_responses (u : UnitState) : (u.lookupAsked).responses = u.responses := by
  unfold UnitState.lookupAsked; split <;> rfl
@[simp] theorem UnitState.lookupAsked_devmapAnswers (u : UnitState) : (u.lookupAsked).devmapAnswers = u.devmapAnswers := by
  unfold UnitState.lookupAsked; split <;> rfl

@[simp] theorem UnitState.devmapAsked_st (u : UnitState) : (u.devmapAsked).st = u.st := by
  unfold UnitState.devmapAsked; split <;> rfl
@[simp] theorem UnitState.devmapAsked_pc (u : UnitState) : (u.devmapAsked).pc = u.pc := by
  unfold UnitState.devmapAsked; split <;> rfl
@[simp] theorem UnitState.devmapAsked_frame (u : UnitState) : (u.devmapAsked).frame = u.frame := by
  unfold UnitState.devmapAsked; split <;> rfl
@[simp] theorem UnitState.devmapAsked_len (u : UnitState) : (u.devmapAsked).len = u.len := by
  unfold UnitState.devmapAsked; split <;> rfl
@[simp] theorem UnitState.devmapAsked_iif (u : UnitState) : (u.devmapAsked).iif = u.iif := by
  unfold UnitState.devmapAsked; split <;> rfl
@[simp] theorem UnitState.devmapAsked_pos (u : UnitState) : (u.devmapAsked).pos = u.pos := by
  unfold UnitState.devmapAsked; split <;> rfl
@[simp] theorem UnitState.devmapAsked_endOff (u : UnitState) : (u.devmapAsked).endOff = u.endOff := by
  unfold UnitState.devmapAsked; split <;> rfl
@[simp] theorem UnitState.devmapAsked_l3 (u : UnitState) : (u.devmapAsked).l3 = u.l3 := by
  unfold UnitState.devmapAsked; split <;> rfl
@[simp] theorem UnitState.devmapAsked_proto (u : UnitState) : (u.devmapAsked).proto = u.proto := by
  unfold UnitState.devmapAsked; split <;> rfl
@[simp] theorem UnitState.devmapAsked_vdepth (u : UnitState) : (u.devmapAsked).vdepth = u.vdepth := by
  unfold UnitState.devmapAsked; split <;> rfl
@[simp] theorem UnitState.devmapAsked_act (u : UnitState) : (u.devmapAsked).act = u.act := by
  unfold UnitState.devmapAsked; split <;> rfl
@[simp] theorem UnitState.devmapAsked_cause (u : UnitState) : (u.devmapAsked).cause = u.cause := by
  unfold UnitState.devmapAsked; split <;> rfl
@[simp] theorem UnitState.devmapAsked_tgt (u : UnitState) : (u.devmapAsked).tgt = u.tgt := by
  unfold UnitState.devmapAsked; split <;> rfl
@[simp] theorem UnitState.devmapAsked_q (u : UnitState) : (u.devmapAsked).q = u.q := by
  unfold UnitState.devmapAsked; split <;> rfl
@[simp] theorem UnitState.devmapAsked_r (u : UnitState) : (u.devmapAsked).r = u.r := by
  unfold UnitState.devmapAsked; split <;> rfl
@[simp] theorem UnitState.devmapAsked_ct (u : UnitState) : (u.devmapAsked).ct = u.ct := by
  unfold UnitState.devmapAsked; split <;> rfl
@[simp] theorem UnitState.devmapAsked_responses (u : UnitState) : (u.devmapAsked).responses = u.responses := by
  unfold UnitState.devmapAsked; split <;> rfl
@[simp] theorem UnitState.devmapAsked_lookupAnswers (u : UnitState) : (u.devmapAsked).lookupAnswers = u.lookupAnswers := by
  unfold UnitState.devmapAsked; split <;> rfl

theorem UnitState.setPos_pos (u : UnitState) (unit v : Nat) (h : v < 2 ^ 32) :
    (u.setPos unit v).pos = some (BitVec.ofNat 32 v) := by
  unfold UnitState.setPos; rw [if_pos h]

@[simp] theorem UnitState.setPos_pos_isSome (u : UnitState) (unit v : Nat) : (u.setPos unit v).pos.isSome = true := by
  unfold UnitState.setPos; split <;> rfl

@[simp] theorem UnitState.incVdepth_vdepth_isSome (u : UnitState) (unit : Nat) (d : BitVec 2) :
    (u.incVdepth unit d).vdepth.isSome = true := by
  unfold UnitState.incVdepth; split <;> rfl

/-! ### put -/

@[simp] theorem State.put_cfg (s : State) (u : UnitState) : (s.put u).cfg = s.cfg := rfl
@[simp] theorem State.put_lenMax (s : State) (u : UnitState) : (s.put u).lenMax = s.lenMax := rfl
@[simp] theorem State.put_rom0 (s : State) (u : UnitState) : (s.put u).rom0 = s.rom0 := rfl
@[simp] theorem State.put_rom1 (s : State) (u : UnitState) : (s.put u).rom1 = s.rom1 := rfl
@[simp] theorem State.put_prog (s : State) (u : UnitState) : (s.put u).prog = s.prog := rfl
@[simp] theorem State.put_turn (s : State) (u : UnitState) : (s.put u).turn = s.turn := rfl
@[simp] theorem State.put_agenda (s : State) (u : UnitState) : (s.put u).agenda = s.agenda := rfl
@[simp] theorem State.put_monitorLog (s : State) (u : UnitState) : (s.put u).monitorLog = s.monitorLog := rfl
@[simp] theorem State.put_units (s : State) (u : UnitState) : (s.put u).units = s.units.set s.turn u := rfl

theorem State.turn_lt_of_cur {s : State} {u : UnitState} (h : s.cur = some u) : s.turn < s.units.length :=
  (List.getElem?_eq_some_iff.mp h).1

/-- The unit just put is the unit whose step it is. -/
theorem State.cur_put {s : State} {u : UnitState} (h : s.cur = some u) (u' : UnitState) : (s.put u').cur = some u' := by
  simp [State.cur, State.turn_lt_of_cur h]

/-- A put leaves every other unit alone. -/
theorem State.put_other (s : State) (u : UnitState) (v : Nat) (h : v ≠ s.turn) : (s.put u).units[v]? = s.units[v]? := by
  simp [Ne.symm h]

theorem State.mem_put {s : State} {u x : UnitState} (h : x ∈ (s.put u).units) : x = u ∨ x ∈ s.units := by
  rw [State.put_units] at h
  exact (List.mem_or_eq_of_mem_set h).symm

theorem State.mem_of_cur {s : State} {u : UnitState} (h : s.cur = some u) : u ∈ s.units :=
  List.mem_of_getElem? h

@[simp] theorem State.put_put (s : State) (u u' : UnitState) : (s.put u).put u' = s.put u' := by
  simp [State.put]

end Sys2Proof.Machine
end

