-- ==== Sys2Proof/Laws/Ops.lean ====
section
/-! SUPPORT. What each shared operation can do, said once. -/

namespace Sys2Proof.Machine

/-! ### Sequencing of reads -/

@[simp] theorem bind_of_ok {α β : Type} (a : α) (f : α → Except FaultReason β) :
    ((Except.ok a : Except FaultReason α) >>= f) = f a := rfl

@[simp] theorem bind_of_error {α β : Type} (e : FaultReason) (f : α → Except FaultReason β) :
    ((Except.error e : Except FaultReason α) >>= f) = .error e := rfl

@[simp] theorem pure_eq_ok {α : Type} (a : α) : (pure a : Except FaultReason α) = .ok a := rfl

/-- A sequence answers only if its first part does. -/
theorem bind_eq_ok {α β : Type} {x : Except FaultReason α} {f : α → Except FaultReason β} {b : β} (h : (x >>= f) = .ok b) :
    ∃ a, x = .ok a ∧ f a = .ok b := by
  cases x with
  | ok a => exact ⟨a, rfl, h⟩
  | error e => cases h

@[simp] theorem readReg_some {α : Type} (v : α) : readReg (some v) = .ok v := rfl
@[simp] theorem readReg_none {α : Type} : readReg (none : Option α) = .error .unwritten := rfl

theorem readReg_eq_ok {α : Type} {r : Option α} {v : α} : readReg r = .ok v ↔ r = some v := by
  cases r <;> simp [readReg]

/-! ### The frame primitives -/

theorem UnitState.check_eq {u : UnitState} {e : Offset} (he : u.endOff = some e) (o n : Nat) :
    u.check o n = .ok (decide (o + n ≤ e.toNat)) := by
  simp [UnitState.check, he]

theorem UnitState.memBytes_ok {u : UnitState} {e : Offset} (he : u.endOff = some e) {o n : Nat} (h : o + n ≤ e.toNat) :
    u.memBytes o n = .ok (u.frame.bytes o n) := by
  simp [UnitState.memBytes, he, Nat.not_lt.mpr h]

theorem UnitState.memBytes_oob {u : UnitState} {e : Offset} (he : u.endOff = some e) {o n : Nat} (h : e.toNat < o + n) :
    u.memBytes o n = .error .oobRead := by
  simp [UnitState.memBytes, he, h]

/-- Everything MemBytes can answer. -/
theorem UnitState.memBytes_eq_ok {u : UnitState} {o n : Nat} {bs : List Byte} (h : u.memBytes o n = .ok bs) :
    ∃ e, u.endOff = some e ∧ o + n ≤ e.toNat ∧ bs = u.frame.bytes o n := by
  obtain ⟨e, he, h⟩ := bind_eq_ok h
  rw [readReg_eq_ok] at he
  split at h
  · cases h
  · exact ⟨e, he, by omega, by injection h with h; exact h.symm⟩

theorem UnitState.memRead_ok {u : UnitState} {e : Offset} (he : u.endOff = some e) {o n : Nat} (h : o + n ≤ e.toNat) :
    u.memRead o n = .ok (beValue (u.frame.bytes o n)) := by
  simp [UnitState.memRead, UnitState.memBytes_ok he h]

theorem UnitState.memRead_oob {u : UnitState} {e : Offset} (he : u.endOff = some e) {o n : Nat} (h : e.toNat < o + n) :
    u.memRead o n = .error .oobRead := by
  simp [UnitState.memRead, UnitState.memBytes_oob he h]

/-- Everything MemRead can answer. -/
theorem UnitState.memRead_eq_ok {u : UnitState} {o n v : Nat} (h : u.memRead o n = .ok v) :
    ∃ e, u.endOff = some e ∧ o + n ≤ e.toNat ∧ v = beValue (u.frame.bytes o n) := by
  obtain ⟨bs, hb, h⟩ := bind_eq_ok h
  obtain ⟨e, he, hle, rfl⟩ := UnitState.memBytes_eq_ok hb
  exact ⟨e, he, hle, by injection h with h; exact h.symm⟩

/-- Everything Check can answer. -/
theorem UnitState.check_eq_ok {u : UnitState} {o n : Nat} {b : Bool} (h : u.check o n = .ok b) :
    ∃ e, u.endOff = some e ∧ b = decide (o + n ≤ e.toNat) := by
  obtain ⟨e, he, h⟩ := bind_eq_ok h
  exact ⟨e, readReg_eq_ok.mp he, by injection h with h; exact h.symm⟩

/-- A one-byte read is that byte. -/
theorem UnitState.memRead_one {u : UnitState} {e : Offset} (he : u.endOff = some e) {o : Nat} (h : o + 1 ≤ e.toNat) :
    u.memRead o 1 = .ok (u.frame.read o).toNat := by
  rw [UnitState.memRead_ok he h, beValue_one]

/-- A two-byte read is big-endian (R44). -/
theorem UnitState.memRead_two {u : UnitState} {e : Offset} (he : u.endOff = some e) {o : Nat} (h : o + 2 ≤ e.toNat) :
    u.memRead o 2 = .ok ((u.frame.read o).toNat * 256 + (u.frame.read (o + 1)).toNat) := by
  rw [UnitState.memRead_ok he h, beValue_two]

theorem UnitState.memWriteBytes_ok {u : UnitState} {e : Offset} (he : u.endOff = some e) {o : Nat} {bs : List Byte}
    (h : o + bs.length ≤ e.toNat) : u.memWriteBytes o bs = .ok { u with frame := u.frame.writeBytes o bs } := by
  simp [UnitState.memWriteBytes, he, Nat.not_lt.mpr h]

/-- Everything MemWriteBytes can answer. -/
theorem UnitState.memWriteBytes_eq_ok {u u' : UnitState} {o : Nat} {bs : List Byte} (h : u.memWriteBytes o bs = .ok u') :
    ∃ e, u.endOff = some e ∧ o + bs.length ≤ e.toNat ∧ u' = { u with frame := u.frame.writeBytes o bs } := by
  obtain ⟨e, he, h⟩ := bind_eq_ok h
  rw [readReg_eq_ok] at he
  split at h
  · cases h
  · exact ⟨e, he, by omega, by injection h with h; exact h.symm⟩

theorem UnitState.memWrite_ok {u : UnitState} {e : Offset} (he : u.endOff = some e) {o n : Nat} (v : Nat)
    (h : o + n ≤ e.toNat) : u.memWrite o n v = .ok { u with frame := u.frame.writeBytes o (beBytes n v) } :=
  UnitState.memWriteBytes_ok he (by simpa using h)

/-- Everything MemWrite can answer. -/
theorem UnitState.memWrite_eq_ok {u u' : UnitState} {o n v : Nat} (h : u.memWrite o n v = .ok u') :
    ∃ e, u.endOff = some e ∧ o + n ≤ e.toNat ∧ u' = { u with frame := u.frame.writeBytes o (beBytes n v) } := by
  simpa using UnitState.memWriteBytes_eq_ok h

/-! ### The Counter Table -/

@[simp] theorem Slice.get?_set_same (c : Slice) (a : Nat) (r : Record) (h : a < 5) : (c.set a r).get? a = some r := by
  match a, h with
  | 0, _ | 1, _ | 2, _ | 3, _ | 4, _ => rfl

theorem Slice.get?_set_other (c : Slice) (a b : Nat) (r : Record) (h : b ≠ a) : (c.set a r).get? b = c.get? b := by
  unfold Slice.set
  split <;> first | rfl | (unfold Slice.get?; split <;> first | rfl | exact absurd rfl h)

theorem Slice.get?_isSome (c : Slice) (a : Nat) : (c.get? a).isSome = true ↔ a < 5 := by
  match a with
  | 0 | 1 | 2 | 3 | 4 => simp [Slice.get?]
  | n + 5 => simp [Slice.get?]

/-- Counting adds to one record. -/
theorem Slice.count_get? (c : Slice) (a : Nat) (len : Offset) (b : Nat) :
    (c.count a len).get? b = if b = a then (c.get? a).map (fun r => r.add len) else c.get? b := by
  unfold Slice.count
  cases h : c.get? a with
  | none => by_cases hb : b = a <;> simp [hb, h]
  | some r =>
    have ha : a < 5 := (Slice.get?_isSome c a).mp (by simp [h])
    by_cases hb : b = a
    · simp [hb, ha]
    · simp [hb, Slice.get?_set_other _ _ _ _ hb]

/-! ### One micro-operation of a unit -/

theorem State.onUnit_ok {s : State} {u u' : UnitState} {f : UnitState → Except FaultReason UnitState} (hu : s.cur = some u)
    (h : f u = .ok u') : s.onUnit f = .next (s.put u') := by
  simp [State.onUnit, hu, h]

theorem State.onUnit_error {s : State} {u : UnitState} {r : FaultReason} {f : UnitState → Except FaultReason UnitState}
    (hu : s.cur = some u) (h : f u = .error r) : s.onUnit f = .next (s.put (u.raise r)) := by
  simp [State.onUnit, hu, h]

/-- Everything a micro-operation can do: its effect on its own unit, or the entry to FAULT. -/
theorem State.onUnit_next {s t : State} {f : UnitState → Except FaultReason UnitState} (h : s.onUnit f = .next t) :
    ∃ u, s.cur = some u ∧
      ((∃ u', f u = .ok u' ∧ t = s.put u') ∨ ∃ r, f u = .error r ∧ t = s.put (u.raise r)) := by
  unfold State.onUnit at h
  split at h
  · cases h
  · rename_i u hu
    refine ⟨u, hu, ?_⟩
    split at h <;> injection h with h
    · exact .inl ⟨_, ‹_›, h.symm⟩
    · exact .inr ⟨_, ‹_›, h.symm⟩

/-- A micro-operation never stops the machine with a fault. -/
theorem State.onUnit_not_fault (s : State) (f : UnitState → Except FaultReason UnitState) (r : Fault) :
    s.onUnit f ≠ .fault r := by
  unfold State.onUnit
  split
  · nofun
  · split <;> nofun

end Sys2Proof.Machine
end

