-- ==== Sys2Proof/Laws/Step.lean ====
section
/-! SUPPORT. What exec, unitStep and step can do, said once. -/

namespace Sys2Proof.Machine

/-- The effect of a micro-operation on its own unit, the meaning exec calls with the sequencing taken off. -/
def unitMeaning (i : Instr) (cfg : BitVec 4) (unit : Nat) : UnitState → Except FaultReason UnitState :=
  match i with
  | .ill => ill
  | .cinit => cinit
  | .chk n => chk n
  | .adv n => adv n
  | .eth => eth
  | .vlan => vlan unit
  | .jp4 t => branchOnProto etIpv4 t
  | .jp6 t => branchOnProto etIpv6 t
  | .unsup => unsup
  | .c4dst => c4dst cfg
  | .c4frag => c4frag
  | .c4l4 => c4l4 cfg unit
  | .c6l4 => c6l4
  | .cudp => cudp
  | .ttl4 => hopGuardAt 8
  | .q4 => q4
  | .ttl6 => hopGuardAt 7
  | .q6 => q6
  | .fib => fib unit
  | .fdisp => fdisp
  | .dec4 => dec4 cfg unit
  | .dec6 => dec6 unit
  | .l2rw => l2rw
  | .redir => redir cfg unit
  | .fin => fin

/-- Every micro-operation acts through `onUnit` on the unit whose step it is. -/
theorem exec_eq_onUnit (i : Instr) (s : State) : exec i s = s.onUnit (unitMeaning i s.cfg s.turn) := by
  cases i <;> rfl

/-- Everything exec can answer as a next state. -/
theorem exec_next {i : Instr} {s t : State} (h : exec i s = .next t) :
    ∃ u, s.cur = some u ∧
      ((∃ u', unitMeaning i s.cfg s.turn u = .ok u' ∧ t = s.put u') ∨
        ∃ r, unitMeaning i s.cfg s.turn u = .error r ∧ t = s.put (u.raise r)) := by
  rw [exec_eq_onUnit] at h; exact State.onUnit_next h

/-- A unit whose turn it is always completes its micro-operation. -/
theorem exec_completes (i : Instr) {s : State} {u : UnitState} (hu : s.cur = some u) : ∃ u', exec i s = .next (s.put u') := by
  rw [exec_eq_onUnit]
  cases h : unitMeaning i s.cfg s.turn u with
  | ok u' => exact ⟨u', State.onUnit_ok hu h⟩
  | error r => exact ⟨_, State.onUnit_error hu h⟩

/-! ### unitStep -/

theorem unitStep_idle {s : State} {u : UnitState} (hu : s.cur = some u) (h : u.st = .idle) : unitStep s = .next s := by
  simp [unitStep, hu, h]

theorem unitStep_fault {s : State} {u : UnitState} {r : FaultReason} (hu : s.cur = some u) (h : u.st = .fault r) :
    unitStep s = .fault .stuck := by
  simp [unitStep, hu, h]

theorem unitStep_run {s : State} {u : UnitState} {w : Word} (hu : s.cur = some u) (h : u.st = .run) (hw : s.fetch u = some w) :
    unitStep s = exec (decode w) s := by
  simp [unitStep, hu, h, hw]

/-- Everything unitStep can answer as a next state. -/
theorem unitStep_next {s t : State} (h : unitStep s = .next t) :
    ∃ u, s.cur = some u ∧
      ((u.st = .idle ∧ t = s) ∨ ∃ w, u.st = .run ∧ s.fetch u = some w ∧ exec (decode w) s = .next t) := by
  unfold unitStep at h
  split at h
  · cases h
  · rename_i u hu
    refine ⟨u, hu, ?_⟩
    split at h
    · injection h with h; exact .inl ⟨‹_›, h.symm⟩
    · cases h
    · split at h
      · cases h
      · exact .inr ⟨_, ‹_›, ‹_›, h⟩

/-! ### The moves of the other agents -/

/-- Everything a request can do. -/
theorem State.submit_next {s t : State} {r : Request} (h : s.submit r = .next t) :
    ∃ u, s.units[r.unit]? = some u ∧ r.len.toNat ≤ s.lenMax.toNat ∧ r.bytes.length = r.len.toNat ∧
      (s.prog = 1 ∨ s.prog = 2) ∧ u.st = .idle ∧
      t = { s with units := s.units.set r.unit (u.start r), turn := r.unit } := by
  unfold State.submit at h
  split at h
  · cases h
  · rename_i u hu
    split at h
    · cases h
    · rename_i h1
      split at h
      · cases h
      · rename_i h2
        split at h
        · cases h
        · rename_i h3
          injection h with h
          refine ⟨u, hu, by omega, by omega, ?_, by simpa using h3, h.symm⟩
          by_cases hp : s.prog = 1
          · exact .inl hp
          · exact .inr (by by_contra hq; exact h2 ⟨hp, hq⟩)

/-- Everything LOAD can do. -/
theorem State.load_next {s t : State} {p : BitVec 2} (h : s.load p = .next t) :
    (p = 1 ∨ p = 2) ∧ (∀ u ∈ s.units, u.st = .idle) ∧ t = { s with prog := p, units := s.units.map UnitState.load } := by
  unfold State.load at h
  split at h
  · cases h
  · rename_i h1
    split at h
    · rename_i h2
      injection h with h
      refine ⟨?_, by simpa using h2, h.symm⟩
      by_cases hp : p = 1
      · exact .inl hp
      · exact .inr (by by_contra hq; exact h1 ⟨hp, hq⟩)
    · cases h

/-- Everything a monitor read can do: it changes the monitor's log only. -/
theorem State.monitorRead_next {s t : State} {u a : Nat} {f : CounterField} (h : s.monitorRead u a f = .next t) :
    ∃ x r, s.units[u]? = some x ∧ x.ct.get? a = some r ∧
      t = { s with monitorLog := ⟨u, a, f, r.field f⟩ :: s.monitorLog } := by
  unfold State.monitorRead at h
  split at h
  · cases h
  · split at h
    · cases h
    · injection h with h; exact ⟨_, _, ‹_›, ‹_›, h.symm⟩

/-- A request never stops the machine with a fault: it has its effect or is refused. -/
theorem State.submit_not_fault (s : State) (r : Request) (f : Fault) : s.submit r ≠ .fault f := by
  unfold State.submit
  split
  · nofun
  · split
    · nofun
    · split
      · nofun
      · split <;> nofun

/-- A LOAD never stops the machine with a fault. -/
theorem State.load_not_fault (s : State) (p : BitVec 2) (f : Fault) : s.load p ≠ .fault f := by
  unfold State.load
  split
  · nofun
  · split <;> nofun

/-- A monitor read never stops the machine with a fault. -/
theorem State.monitorRead_not_fault (s : State) (u a : Nat) (g : CounterField) (f : Fault) : s.monitorRead u a g ≠ .fault f := by
  unfold State.monitorRead
  split
  · nofun
  · split <;> nofun

/-! ### step -/

@[simp] theorem step_nil {s : State} (h : s.agenda = []) : step s = unitStep s := by
  simp [step, h]

theorem step_cons {s : State} {m : Move} {rest : List Move} (h : s.agenda = m :: rest) :
    step s = perform m { s with agenda := rest } := by
  simp [step, h]

/-- Everything a step can answer as a next state: one unit's step, one request, one LOAD, or one monitor read, from the state
with the move taken off the agenda and the turn given to the unit that moves. -/
theorem step_next {s t : State} (h : step s = .next t) :
    ∃ ag tn, let s' := { s with agenda := ag, turn := tn };
      unitStep s' = .next t ∨ (∃ r, s'.submit r = .next t) ∨ (∃ p, s'.load p = .next t) ∨
        ∃ u a f, s'.monitorRead u a f = .next t := by
  unfold step at h
  split at h
  · exact ⟨s.agenda, s.turn, .inl h⟩
  · rename_i m rest _
    cases m with
    | unitStep u => exact ⟨rest, u, .inl h⟩
    | request r => exact ⟨rest, s.turn, .inr (.inl ⟨r, h⟩)⟩
    | load p => exact ⟨rest, s.turn, .inr (.inr (.inl ⟨p, h⟩))⟩
    | monitor u a f => exact ⟨rest, s.turn, .inr (.inr (.inr ⟨u, a, f, h⟩))⟩

end Sys2Proof.Machine
end

