-- ==== Sys2Proof/Laws/Meanings.lean ====
section
/-! SUPPORT. Everything each meaning can answer, guards included, said once: later proofs cite these and never unfold a meaning. -/

namespace Sys2Proof.Machine

theorem ill_ok {u u' : UnitState} (h : ill u = .ok u') : False := by cases h

theorem cinit_ok {u u' : UnitState} (h : cinit u = .ok u') :
    u' = { u with pos := some 0, endOff := some u.len, l3 := some 0, proto := some 0, vdepth := some 0, act := some actPass,
                  cause := some causeNone }.advance := by
  injection h with h; exact h.symm

/-- A check of n bytes at pos: it answers, and what follows it is `yes` or the resolve PASS/TRUNC. -/
theorem checked_ok {u u' : UnitState} {n : Nat} {yes : Offset → Except FaultReason UnitState}
    (h : (do
      let p ← readReg u.pos
      if ← u.check p.toNat n then yes p else return u.resolve actPass causeTrunc) = .ok u') :
    ∃ p e, u.pos = some p ∧ u.endOff = some e ∧
      (p.toNat + n ≤ e.toNat ∧ yes p = .ok u' ∨ e.toNat < p.toNat + n ∧ u' = u.resolve actPass causeTrunc) := by
  obtain ⟨p, hp, h⟩ := bind_eq_ok h
  obtain ⟨b, hb, h⟩ := bind_eq_ok h
  obtain ⟨e, he, rfl⟩ := UnitState.check_eq_ok hb
  refine ⟨p, e, readReg_eq_ok.mp hp, he, ?_⟩
  by_cases hle : p.toNat + n ≤ e.toNat
  · exact .inl ⟨hle, by simpa [hle] using h⟩
  · rw [if_neg (by simpa using hle)] at h
    exact .inr ⟨by omega, by injection h with h; exact h.symm⟩

theorem chk_ok {n : BitVec 8} {u u' : UnitState} (h : chk n u = .ok u') :
    ∃ p e, u.pos = some p ∧ u.endOff = some e ∧
      (p.toNat + n.toNat ≤ e.toNat ∧ u' = u.advance ∨ e.toNat < p.toNat + n.toNat ∧ u' = u.resolve actPass causeTrunc) := by
  obtain ⟨p, e, hp, he, ⟨hle, h⟩ | h⟩ := checked_ok h
  · exact ⟨p, e, hp, he, .inl ⟨hle, by injection h with h; exact h.symm⟩⟩
  · exact ⟨p, e, hp, he, .inr h⟩

theorem adv_ok {n : BitVec 8} {u u' : UnitState} (h : adv n u = .ok u') :
    ∃ p e, u.pos = some p ∧ u.endOff = some e ∧
      (p.toNat + n.toNat ≤ e.toNat ∧ u' = { u with pos := some (BitVec.ofNat 32 (p.toNat + n.toNat)) }.advance ∨
       e.toNat < p.toNat + n.toNat ∧ u' = u.resolve actPass causeTrunc) := by
  obtain ⟨p, e, hp, he, ⟨hle, h⟩ | h⟩ := checked_ok h
  · exact ⟨p, e, hp, he, .inl ⟨hle, by injection h with h; exact h.symm⟩⟩
  · exact ⟨p, e, hp, he, .inr h⟩

theorem eth_ok {u u' : UnitState} (h : eth u = .ok u') :
    ∃ p e, u.pos = some p ∧ u.endOff = some e ∧
      (p.toNat + 14 ≤ e.toNat ∧
        u' = { u with proto := some (BitVec.ofNat 16 (beValue (u.frame.bytes (p.toNat + 12) 2))),
                      pos := some (BitVec.ofNat 32 (p.toNat + 14)) }.advance ∨
       e.toNat < p.toNat + 14 ∧ u' = u.resolve actPass causeTrunc) := by
  obtain ⟨p, e, hp, he, ⟨hle, h⟩ | h⟩ := checked_ok h
  · obtain ⟨v, hv, h⟩ := bind_eq_ok h
    obtain ⟨_, _, _, rfl⟩ := UnitState.memRead_eq_ok hv
    exact ⟨p, e, hp, he, .inl ⟨hle, by injection h with h; exact h.symm⟩⟩
  · exact ⟨p, e, hp, he, .inr h⟩

theorem vlan_ok {unit : Nat} {u u' : UnitState} (h : vlan unit u = .ok u') :
    ∃ pr, u.proto = some pr ∧
      (isVlanTpid pr = false ∧ u' = u.advance ∨
       isVlanTpid pr = true ∧ ∃ p e, u.pos = some p ∧ u.endOff = some e ∧
        (e.toNat < p.toNat + 4 ∧ u' = u.resolve actPass causeTrunc ∨
         p.toNat + 4 ≤ e.toNat ∧ ∃ d, u.vdepth = some d ∧
          u' = ({ u with proto := some (BitVec.ofNat 16 (beValue (u.frame.bytes (p.toNat + 2) 2))),
                         pos := some (BitVec.ofNat 32 (p.toNat + 4)) }.incVdepth unit d).advance)) := by
  obtain ⟨pr, hpr, h⟩ := bind_eq_ok h
  refine ⟨pr, readReg_eq_ok.mp hpr, ?_⟩
  cases ht : isVlanTpid pr
  · rw [if_neg (by simp [ht])] at h
    exact .inl ⟨rfl, by injection h with h; exact h.symm⟩
  · rw [if_pos ht] at h
    obtain ⟨p, e, hp, he, ⟨hle, h⟩ | h⟩ := checked_ok h
    · obtain ⟨v, hv, h⟩ := bind_eq_ok h
      obtain ⟨_, _, _, rfl⟩ := UnitState.memRead_eq_ok hv
      obtain ⟨d, hd, h⟩ := bind_eq_ok h
      exact .inr ⟨rfl, p, e, hp, he, .inr ⟨hle, d, readReg_eq_ok.mp hd, by injection h with h; exact h.symm⟩⟩
    · exact .inr ⟨rfl, p, e, hp, he, .inl h⟩

theorem branchOnProto_ok {wanted : BitVec 16} {t : BitVec 6} {u u' : UnitState} (h : branchOnProto wanted t u = .ok u') :
    ∃ pr, u.proto = some pr ∧
      (pr ≠ wanted ∧ u' = u.advance ∨ pr = wanted ∧ ∃ p, u.pos = some p ∧ u' = { u with l3 := some p, pc := t }) := by
  obtain ⟨pr, hpr, h⟩ := bind_eq_ok h
  refine ⟨pr, readReg_eq_ok.mp hpr, ?_⟩
  split at h
  · obtain ⟨p, hp, h⟩ := bind_eq_ok h
    exact .inr ⟨‹_›, p, readReg_eq_ok.mp hp, by injection h with h; exact h.symm⟩
  · exact .inl ⟨‹_›, by injection h with h; exact h.symm⟩

theorem unsup_ok {u u' : UnitState} (h : unsup u = .ok u') : u' = u.resolve actPass causeUnsup := by
  injection h with h; exact h.symm

theorem c4dst_ok {cfg : BitVec 4} {u u' : UnitState} (h : c4dst cfg u = .ok u') :
    ∃ l e, u.l3 = some l ∧ u.endOff = some e ∧ l.toNat + dstOctetOffset cfg + 1 ≤ e.toNat ∧
      ((isNetOrBroadcastOctet (u.frame.read (l.toNat + dstOctetOffset cfg)).toNat = true ∧ u' = u.resolve actDrop causeDstOct) ∨
       (isNetOrBroadcastOctet (u.frame.read (l.toNat + dstOctetOffset cfg)).toNat = false ∧ u' = u.advance)) := by
  obtain ⟨l, hl, h⟩ := bind_eq_ok h
  obtain ⟨v, hv, h⟩ := bind_eq_ok h
  obtain ⟨e, he, hle, rfl⟩ := UnitState.memRead_eq_ok hv
  rw [beValue_one] at h
  refine ⟨l, e, readReg_eq_ok.mp hl, he, hle, ?_⟩
  split at h <;> injection h with h
  · exact .inl ⟨‹_›, h.symm⟩
  · exact .inr ⟨eq_false_of_ne_true ‹_›, h.symm⟩

theorem c4frag_ok {u u' : UnitState} (h : c4frag u = .ok u') :
    ∃ l e, u.l3 = some l ∧ u.endOff = some e ∧ l.toNat + 8 ≤ e.toNat ∧
      ((isFragment (beValue (u.frame.bytes (l.toNat + 6) 2)) = true ∧ u' = u.resolve actDrop causeFrag) ∨
       (isFragment (beValue (u.frame.bytes (l.toNat + 6) 2)) = false ∧ u' = u.advance)) := by
  obtain ⟨l, hl, h⟩ := bind_eq_ok h
  obtain ⟨v, hv, h⟩ := bind_eq_ok h
  obtain ⟨e, he, hle, rfl⟩ := UnitState.memRead_eq_ok hv
  refine ⟨l, e, readReg_eq_ok.mp hl, he, by omega, ?_⟩
  split at h <;> injection h with h
  · exact .inl ⟨‹_›, h.symm⟩
  · exact .inr ⟨eq_false_of_ne_true ‹_›, h.symm⟩

theorem c4l4_ok {cfg : BitVec 4} {unit : Nat} {u u' : UnitState} (h : c4l4 cfg unit u = .ok u') :
    ∃ l e, u.l3 = some l ∧ u.endOff = some e ∧ l.toNat + 10 ≤ e.toNat ∧
      (((u.frame.read (l.toNat + 9)).toNat ≠ 17 ∧ u' = u.resolve actPass causeDefault) ∨
       ((u.frame.read (l.toNat + 9)).toNat = 17 ∧ fixedL4Offset cfg = true ∧ u' = (u.setPos unit (l.toNat + 20)).advance) ∨
       ((u.frame.read (l.toNat + 9)).toNat = 17 ∧ fixedL4Offset cfg = false ∧
         ihlOf (u.frame.read l.toNat).toNat < 5 ∧ u' = u.resolve actPass causeBadIhl) ∨
       ((u.frame.read (l.toNat + 9)).toNat = 17 ∧ fixedL4Offset cfg = false ∧ 5 ≤ ihlOf (u.frame.read l.toNat).toNat ∧
         u' = (u.setPos unit (l.toNat + 4 * ihlOf (u.frame.read l.toNat).toNat)).advance)) := by
  obtain ⟨l, hl, h⟩ := bind_eq_ok h
  obtain ⟨v, hv, h⟩ := bind_eq_ok h
  obtain ⟨e, he, hle, rfl⟩ := UnitState.memRead_eq_ok hv
  rw [beValue_one] at h
  refine ⟨l, e, readReg_eq_ok.mp hl, he, by omega, ?_⟩
  split at h
  · injection h with h; exact .inl ⟨‹_›, h.symm⟩
  · have h17 : (u.frame.read (l.toNat + 9)).toNat = 17 := not_not.mp ‹_›
    split at h
    · injection h with h; exact .inr (.inl ⟨h17, ‹_›, h.symm⟩)
    · have hc : fixedL4Offset cfg = false := eq_false_of_ne_true ‹_›
      obtain ⟨vl, hvl, h⟩ := bind_eq_ok h
      obtain ⟨_, _, _, rfl⟩ := UnitState.memRead_eq_ok hvl
      rw [beValue_one] at h
      split at h <;> injection h with h
      · exact .inr (.inr (.inl ⟨h17, hc, ‹_›, h.symm⟩))
      · exact .inr (.inr (.inr ⟨h17, hc, by omega, h.symm⟩))

theorem c6l4_ok {u u' : UnitState} (h : c6l4 u = .ok u') :
    ∃ l e, u.l3 = some l ∧ u.endOff = some e ∧ l.toNat + 7 ≤ e.toNat ∧
      (((u.frame.read (l.toNat + 6)).toNat ≠ 17 ∧ u' = u.resolve actPass causeDefault) ∨
       ((u.frame.read (l.toNat + 6)).toNat = 17 ∧ u' = u.advance)) := by
  obtain ⟨l, hl, h⟩ := bind_eq_ok h
  obtain ⟨v, hv, h⟩ := bind_eq_ok h
  obtain ⟨e, he, hle, rfl⟩ := UnitState.memRead_eq_ok hv
  rw [beValue_one] at h
  refine ⟨l, e, readReg_eq_ok.mp hl, he, by omega, ?_⟩
  split at h <;> injection h with h
  · exact .inl ⟨‹_›, h.symm⟩
  · exact .inr ⟨not_not.mp ‹_›, h.symm⟩

theorem cudp_ok {u u' : UnitState} (h : cudp u = .ok u') :
    ∃ p e, u.pos = some p ∧ u.endOff = some e ∧ p.toNat + 4 ≤ e.toNat ∧
      ((isDnsPort (beValue (u.frame.bytes p.toNat 2)) (beValue (u.frame.bytes (p.toNat + 2) 2)) = true ∧
         u' = u.resolve actDrop causeDns) ∨
       (isDnsPort (beValue (u.frame.bytes p.toNat 2)) (beValue (u.frame.bytes (p.toNat + 2) 2)) = false ∧
         u' = u.resolve actPass causeDefault)) := by
  obtain ⟨p, hp, h⟩ := bind_eq_ok h
  obtain ⟨v, hv, h⟩ := bind_eq_ok h
  obtain ⟨_, _, _, rfl⟩ := UnitState.memRead_eq_ok hv
  obtain ⟨w, hw, h⟩ := bind_eq_ok h
  obtain ⟨e, he, hle, rfl⟩ := UnitState.memRead_eq_ok hw
  refine ⟨p, e, readReg_eq_ok.mp hp, he, by omega, ?_⟩
  split at h <;> injection h with h
  · exact .inl ⟨‹_›, h.symm⟩
  · exact .inr ⟨eq_false_of_ne_true ‹_›, h.symm⟩

theorem hopGuardAt_ok {k : Nat} {u u' : UnitState} (h : hopGuardAt k u = .ok u') :
    ∃ l e, u.l3 = some l ∧ u.endOff = some e ∧ l.toNat + k + 1 ≤ e.toNat ∧
      (((u.frame.read (l.toNat + k)).toNat ≤ 1 ∧ u' = u.resolve actPass causeTtlGuard) ∨
       (1 < (u.frame.read (l.toNat + k)).toNat ∧ u' = u.advance)) := by
  obtain ⟨l, hl, h⟩ := bind_eq_ok h
  obtain ⟨v, hv, h⟩ := bind_eq_ok h
  obtain ⟨e, he, hle, rfl⟩ := UnitState.memRead_eq_ok hv
  rw [beValue_one] at h
  refine ⟨l, e, readReg_eq_ok.mp hl, he, hle, ?_⟩
  split at h <;> injection h with h
  · rename_i hx; exact .inl ⟨of_decide_eq_true hx, h.symm⟩
  · rename_i hx; exact .inr ⟨Nat.lt_of_not_le (of_decide_eq_false (eq_false_of_ne_true hx)), h.symm⟩

/-- The query Q4 builds from the header at l (R102). -/
def queryAt4 (u : UnitState) (l : Nat) : Query where
  family := .ipv4
  tos := BitVec.ofNat 32 (u.frame.read (l + 1)).toNat
  l4p := BitVec.ofNat 8 (u.frame.read (l + 9)).toNat
  tlen := BitVec.ofNat 16 (beValue (u.frame.bytes (l + 2) 2))
  src := u.frame.bytes (l + 12) 4
  dst := u.frame.bytes (l + 16) 4
  iif := u.iif

theorem q4_ok {u u' : UnitState} (h : q4 u = .ok u') :
    ∃ l e, u.l3 = some l ∧ u.endOff = some e ∧ l.toNat + 20 ≤ e.toNat ∧ u' = { u with q := some (queryAt4 u l.toNat) }.advance := by
  obtain ⟨l, hl, h⟩ := bind_eq_ok h
  obtain ⟨v1, hv, h⟩ := bind_eq_ok h
  obtain ⟨_, _, _, rfl⟩ := UnitState.memRead_eq_ok hv
  obtain ⟨v2, hv, h⟩ := bind_eq_ok h
  obtain ⟨_, _, _, rfl⟩ := UnitState.memRead_eq_ok hv
  obtain ⟨v3, hv, h⟩ := bind_eq_ok h
  obtain ⟨_, _, _, rfl⟩ := UnitState.memRead_eq_ok hv
  obtain ⟨v4, hv, h⟩ := bind_eq_ok h
  obtain ⟨_, _, _, rfl⟩ := UnitState.memBytes_eq_ok hv
  obtain ⟨v5, hv, h⟩ := bind_eq_ok h
  obtain ⟨e, he, hle, rfl⟩ := UnitState.memBytes_eq_ok hv
  rw [beValue_one, beValue_one] at h
  exact ⟨l, e, readReg_eq_ok.mp hl, he, by omega, by injection h with h; exact h.symm⟩

/-- The query Q6 builds from the header at l (R104). -/
def queryAt6 (u : UnitState) (l : Nat) : Query where
  family := .ipv6
  tos := BitVec.ofNat 32 (beValue (u.frame.bytes l 4)) &&& flowinfoMask
  l4p := BitVec.ofNat 8 (u.frame.read (l + 6)).toNat
  tlen := BitVec.ofNat 16 (beValue (u.frame.bytes (l + 4) 2))
  src := u.frame.bytes (l + 8) 16
  dst := u.frame.bytes (l + 24) 16
  iif := u.iif

theorem q6_ok {u u' : UnitState} (h : q6 u = .ok u') :
    ∃ l e, u.l3 = some l ∧ u.endOff = some e ∧ l.toNat + 40 ≤ e.toNat ∧ u' = { u with q := some (queryAt6 u l.toNat) }.advance := by
  obtain ⟨l, hl, h⟩ := bind_eq_ok h
  obtain ⟨v1, hv, h⟩ := bind_eq_ok h
  obtain ⟨_, _, _, rfl⟩ := UnitState.memRead_eq_ok hv
  obtain ⟨v2, hv, h⟩ := bind_eq_ok h
  obtain ⟨_, _, _, rfl⟩ := UnitState.memRead_eq_ok hv
  obtain ⟨v3, hv, h⟩ := bind_eq_ok h
  obtain ⟨_, _, _, rfl⟩ := UnitState.memRead_eq_ok hv
  obtain ⟨v4, hv, h⟩ := bind_eq_ok h
  obtain ⟨_, _, _, rfl⟩ := UnitState.memBytes_eq_ok hv
  obtain ⟨v5, hv, h⟩ := bind_eq_ok h
  obtain ⟨e, he, hle, rfl⟩ := UnitState.memBytes_eq_ok hv
  rw [beValue_one] at h
  exact ⟨l, e, readReg_eq_ok.mp hl, he, by omega, by injection h with h; exact h.symm⟩

theorem fib_ok {unit : Nat} {u u' : UnitState} (h : fib unit u = .ok u') :
    ∃ q, u.q = some q ∧ u' = { u.lookupAsked with r := some (u.lookupAnswer unit q) }.advance := by
  obtain ⟨q, hq, h⟩ := bind_eq_ok h
  exact ⟨q, readReg_eq_ok.mp hq, by injection h with h; exact h.symm⟩

theorem fdisp_ok {u u' : UnitState} (h : fdisp u = .ok u') :
    ∃ r, u.r = some r ∧
      ((lookupClass r.rc = .success ∧ u' = u.advance) ∨ (lookupClass r.rc = .hard ∧ u' = u.resolve actDrop causeHard) ∨
       (lookupClass r.rc = .soft ∧ u' = u.resolve actPass causeSoft)) := by
  obtain ⟨r, hr, h⟩ := bind_eq_ok h
  refine ⟨r, readReg_eq_ok.mp hr, ?_⟩
  split at h <;> injection h with h
  · exact .inl ⟨‹_›, h.symm⟩
  · exact .inr (.inl ⟨‹_›, h.symm⟩)
  · exact .inr (.inr ⟨‹_›, h.symm⟩)

theorem dec4_ok {cfg : BitVec 4} {unit : Nat} {u u' : UnitState} (h : dec4 cfg unit u = .ok u') :
    ∃ l e, u.l3 = some l ∧ u.endOff = some e ∧ l.toNat + 12 ≤ e.toNat ∧
      u' = { u.hopAsked (u.frame.read (l.toNat + 8)).toNat with
        frame := (u.frame.writeBytes (l.toNat + 8) (beBytes 1 (u.hopDecremented unit (u.frame.read (l.toNat + 8)).toNat))).writeBytes
          (l.toNat + 10) (beBytes 2 (csumTtl cfg (beValue (u.frame.bytes (l.toNat + 10) 2)))) }.advance := by
  obtain ⟨l, hl, h⟩ := bind_eq_ok h
  obtain ⟨ttl, hv, h⟩ := bind_eq_ok h
  obtain ⟨_, _, _, rfl⟩ := UnitState.memRead_eq_ok hv
  obtain ⟨c, hv, h⟩ := bind_eq_ok h
  obtain ⟨e, he, hle, rfl⟩ := UnitState.memRead_eq_ok hv
  obtain ⟨u1, hw, h⟩ := bind_eq_ok h
  obtain ⟨_, _, _, rfl⟩ := UnitState.memWrite_eq_ok hw
  obtain ⟨u2, hw, h⟩ := bind_eq_ok h
  obtain ⟨_, _, _, rfl⟩ := UnitState.memWrite_eq_ok hw
  rw [beValue_one] at h
  refine ⟨l, e, readReg_eq_ok.mp hl, he, by omega, ?_⟩
  injection h with h
  rw [← h, UnitState.hopAsked_frame]

theorem dec6_ok {unit : Nat} {u u' : UnitState} (h : dec6 unit u = .ok u') :
    ∃ l e, u.l3 = some l ∧ u.endOff = some e ∧ l.toNat + 8 ≤ e.toNat ∧
      u' = { u.hopAsked (u.frame.read (l.toNat + 7)).toNat with
        frame := u.frame.writeBytes (l.toNat + 7)
          (beBytes 1 (u.hopDecremented unit (u.frame.read (l.toNat + 7)).toNat)) }.advance := by
  obtain ⟨l, hl, h⟩ := bind_eq_ok h
  obtain ⟨ttl, hv, h⟩ := bind_eq_ok h
  obtain ⟨e, he, hle, rfl⟩ := UnitState.memRead_eq_ok hv
  obtain ⟨u1, hw, h⟩ := bind_eq_ok h
  obtain ⟨_, _, _, rfl⟩ := UnitState.memWrite_eq_ok hw
  rw [beValue_one] at h
  refine ⟨l, e, readReg_eq_ok.mp hl, he, by omega, ?_⟩
  injection h with h
  rw [← h, UnitState.hopAsked_frame]

theorem l2rw_ok {u u' : UnitState} (h : l2rw u = .ok u') :
    ∃ r e, u.r = some r ∧ u.endOff = some e ∧ 12 ≤ e.toNat ∧
      u' = { u with frame := (u.frame.writeBytes 0 (beBytes 6 r.dmac.toNat)).writeBytes 6 (beBytes 6 r.smac.toNat) }.advance := by
  obtain ⟨r, hr, h⟩ := bind_eq_ok h
  obtain ⟨u1, hw, h⟩ := bind_eq_ok h
  obtain ⟨_, _, _, rfl⟩ := UnitState.memWriteBytes_eq_ok hw
  obtain ⟨u2, hw, h⟩ := bind_eq_ok h
  obtain ⟨e, he, hle, rfl⟩ := UnitState.memWriteBytes_eq_ok hw
  exact ⟨r, e, readReg_eq_ok.mp hr, he, by simpa using hle, by injection h with h; exact h.symm⟩

theorem redir_ok {cfg : BitVec 4} {unit : Nat} {u u' : UnitState} (h : redir cfg unit u = .ok u') :
    ∃ r, u.r = some r ∧
      ((devmapCheck cfg = false ∧ u' = u.redirectTo r.oif) ∨
       (devmapCheck cfg = true ∧ u.devmapPresent unit r.oif = true ∧ u' = u.devmapAsked.redirectTo r.oif) ∨
       (devmapCheck cfg = true ∧ u.devmapPresent unit r.oif = false ∧ u' = u.devmapAsked.resolve actAborted causeDevmapMiss)) := by
  obtain ⟨r, hr, h⟩ := bind_eq_ok h
  refine ⟨r, readReg_eq_ok.mp hr, ?_⟩
  split at h
  · split at h <;> injection h with h
    · exact .inr (.inl ⟨‹_›, ‹_›, h.symm⟩)
    · exact .inr (.inr ⟨‹_›, eq_false_of_ne_true ‹_›, h.symm⟩)
  · injection h with h
    exact .inl ⟨eq_false_of_ne_true ‹_›, h.symm⟩

theorem fin_ok {u u' : UnitState} (h : fin u = .ok u') :
    ∃ a, u.act = some a ∧
      ((5 ≤ a.toNat ∧ u' = { u with cause := some causeBadact }.respond actAborted none) ∨
       (a.toNat < 5 ∧ ∃ e tgt, u.endOff = some e ∧ (if a = actRedirect then tgt = u.tgt ∧ tgt.isSome = true else tgt = none) ∧
         u' = { u with ct := u.ct.count a.toNat e }.respond a tgt)) := by
  obtain ⟨a, ha, h⟩ := bind_eq_ok h
  refine ⟨a, readReg_eq_ok.mp ha, ?_⟩
  split at h
  · injection h with h; exact .inl ⟨‹_›, h.symm⟩
  · obtain ⟨e, he, h⟩ := bind_eq_ok h
    obtain ⟨tgt, ht, h⟩ := bind_eq_ok h
    refine .inr ⟨by simp only [actionMax] at *; omega, e, tgt, readReg_eq_ok.mp he, ?_, by injection h with h; exact h.symm⟩
    unfold UnitState.targetOut at ht
    split at ht
    · obtain ⟨x, hx, ht⟩ := bind_eq_ok ht
      injection ht with ht
      rw [if_pos ‹_›, readReg_eq_ok.mp hx, ← ht]; simp
    · injection ht with ht
      rw [if_neg ‹_›, ← ht]

end Sys2Proof.Machine
end

