-- ==== Sys2Proof/Laws/PerInstr.lean ====
section
/-! SUPPORT. Statements about every micro-operation as syntax, one lemma per constructor of Instr. -/

namespace Sys2Proof.Laws

/-- Decoding the word of a micro-operation gives it back. -/
def RoundTrip.Statement (i : Instr) : Prop := decode (encode i) = i

theorem RoundTrip.ill : RoundTrip.Statement .ill := by
  unfold RoundTrip.Statement; decide
theorem RoundTrip.cinit : RoundTrip.Statement .cinit := by
  unfold RoundTrip.Statement; decide
theorem RoundTrip.chk (n : BitVec 8) : RoundTrip.Statement (.chk n) := by
  simp [RoundTrip.Statement, decode, decodeRow, encode, opcodeMap, Format.reject]
theorem RoundTrip.adv (n : BitVec 8) : RoundTrip.Statement (.adv n) := by
  simp [RoundTrip.Statement, decode, decodeRow, encode, opcodeMap, Format.reject]
theorem RoundTrip.eth : RoundTrip.Statement .eth := by
  unfold RoundTrip.Statement; decide
theorem RoundTrip.vlan : RoundTrip.Statement .vlan := by
  unfold RoundTrip.Statement; decide
theorem RoundTrip.jp4 (t : BitVec 6) : RoundTrip.Statement (.jp4 t) := by
  simp [RoundTrip.Statement, decode, decodeRow, encode, opcodeMap, Format.reject]
theorem RoundTrip.jp6 (t : BitVec 6) : RoundTrip.Statement (.jp6 t) := by
  simp [RoundTrip.Statement, decode, decodeRow, encode, opcodeMap, Format.reject]
theorem RoundTrip.unsup : RoundTrip.Statement .unsup := by
  unfold RoundTrip.Statement; decide
theorem RoundTrip.c4dst : RoundTrip.Statement .c4dst := by
  unfold RoundTrip.Statement; decide
theorem RoundTrip.c4frag : RoundTrip.Statement .c4frag := by
  unfold RoundTrip.Statement; decide
theorem RoundTrip.c4l4 : RoundTrip.Statement .c4l4 := by
  unfold RoundTrip.Statement; decide
theorem RoundTrip.c6l4 : RoundTrip.Statement .c6l4 := by
  unfold RoundTrip.Statement; decide
theorem RoundTrip.cudp : RoundTrip.Statement .cudp := by
  unfold RoundTrip.Statement; decide
theorem RoundTrip.ttl4 : RoundTrip.Statement .ttl4 := by
  unfold RoundTrip.Statement; decide
theorem RoundTrip.q4 : RoundTrip.Statement .q4 := by
  unfold RoundTrip.Statement; decide
theorem RoundTrip.ttl6 : RoundTrip.Statement .ttl6 := by
  unfold RoundTrip.Statement; decide
theorem RoundTrip.q6 : RoundTrip.Statement .q6 := by
  unfold RoundTrip.Statement; decide
theorem RoundTrip.fib : RoundTrip.Statement .fib := by
  unfold RoundTrip.Statement; decide
theorem RoundTrip.fdisp : RoundTrip.Statement .fdisp := by
  unfold RoundTrip.Statement; decide
theorem RoundTrip.dec4 : RoundTrip.Statement .dec4 := by
  unfold RoundTrip.Statement; decide
theorem RoundTrip.dec6 : RoundTrip.Statement .dec6 := by
  unfold RoundTrip.Statement; decide
theorem RoundTrip.l2rw : RoundTrip.Statement .l2rw := by
  unfold RoundTrip.Statement; decide
theorem RoundTrip.redir : RoundTrip.Statement .redir := by
  unfold RoundTrip.Statement; decide
theorem RoundTrip.fin : RoundTrip.Statement .fin := by
  unfold RoundTrip.Statement; decide

end Sys2Proof.Laws
end

