-- ==== Sys2Proof/Tests/Slice0.lean ====
section
/-! SUPPORT. The model's own tests: decoding of words written out from the spec, the checks of WellFormed, one step of each
micro-operation on a small state (expected values from spec/95_test_vectors.md or worked by hand from the rule named), and for
each obligation a concrete state and operands that meet its hypotheses. -/

namespace Sys2Proof.Tests

open Sys2Proof Sys2Proof.Machine

/-! ### Helpers -/

/-- The 42-byte frame of P1 (95_test_vectors.md L3): IPv4, TTL 5, UDP 1000 to 53, checksum 0x8F9B. -/
def frame4 : List Byte :=
  [0x02, 0x00, 0x00, 0x00, 0x00, 0x01, 0x02, 0x00, 0x00, 0x00, 0x00, 0x02, 0x08, 0x00, 0x45, 0x00, 0x00, 0x1c, 0x12, 0x34, 0x00, 0x00] ++
  [0x05, 0x11, 0x8f, 0x9b, 0x0a, 0x00, 0x00, 0x01, 0x0a, 0x00, 0x00, 0x02, 0x03, 0xe8, 0x00, 0x35, 0x00, 0x08, 0x00, 0x00]

/-- The 54-byte frame of V-F6 (95_test_vectors.md L2.5): IPv6, first word 0x6ABCDEF1, next header 17, hop limit 64. -/
def frame6 : List Byte :=
  [0x02, 0x00, 0x00, 0x00, 0x00, 0x01, 0x02, 0x00, 0x00, 0x00, 0x00, 0x02, 0x86, 0xdd, 0x6a, 0xbc, 0xde, 0xf1, 0x00, 0x00, 0x11, 0x40, 0x20, 0x01, 0x0d, 0xb8, 0x00, 0x00, 0x00, 0x00] ++
  [0x00, 0x00, 0x00, 0x00, 0x00, 0x00, 0x00, 0x01, 0x20, 0x01, 0x0d, 0xb8, 0x00, 0x00, 0x00, 0x00, 0x00, 0x00, 0x00, 0x00, 0x00, 0x00, 0x00, 0x02]

/-- A RUN unit at pc on a frame, with CINIT done: pos and l3 as given. -/
def unitAt (pc : BitVec 6) (bytes : List Byte) (pos l3 : Offset) (proto : BitVec 16) : UnitState :=
  { UnitState.powerOn with
    st := .run, pc := pc, frame := Memory.ofBytes bytes, len := BitVec.ofNat 32 bytes.length, iif := 3, pos := some pos,
    endOff := some (BitVec.ofNat 32 bytes.length), l3 := some l3, proto := some proto, vdepth := some 0, act := some 2,
    cause := some 0 }

/-- The answer OK of 95_test_vectors.md. -/
def answerOk : LookupResult := ⟨0, 7, 0x0A0B0C0D0E0F, 0x112233445566⟩

/-- A core of two units with PROG and CFG as given, unit 0 as given and next to move. -/
def coreOf (prog : BitVec 2) (cfg : BitVec 4) (u : UnitState) : State :=
  { State.powerOn 2 0xFFFFFFFF cfg with prog := prog, units := [u, UnitState.powerOn] }

/-- Unit 0's state after a next state; nothing where the outcome is another. -/
def unitAfter (o : Host.Outcome State Fault Refusal) : Option UnitState :=
  match o with
  | .next t => t.units[0]?
  | _ => none

/-- The unit after one micro-operation. -/
def after (i : Instr) (cfg : BitVec 4) (u : UnitState) : Option UnitState := unitAfter (exec i (coreOf 1 cfg u))

/-- pc, act and cause: what a resolve writes. -/
def verdict (o : Option UnitState) : Option (BitVec 6 × Option (BitVec 3) × Option (BitVec 4)) :=
  o.map fun u => (u.pc, u.act, u.cause)

/-- The bytes at some offsets. -/
def bytesAt (o : Option UnitState) (offsets : List Nat) : Option (List Byte) :=
  o.map fun u => offsets.map u.frame.read

/-- The outcome is a next state. -/
def isNext (o : Host.Outcome State Fault Refusal) : Bool :=
  match o with
  | .next _ => true
  | _ => false

theorem exists_next {o : Host.Outcome State Fault Refusal} (h : isNext o = true) : ∃ t, o = .next t := by
  cases o with
  | next t => exact ⟨t, rfl⟩
  | fault r => cases h
  | refused r => cases h

/-- P1's request (95_test_vectors.md L3). -/
def request4 : Request := ⟨0, frame4, 42, 3⟩

/-! ### Decoding: the words of 30_encoding.md R64 and 95_test_vectors.md L2.1 -/

theorem test_decode_sequencer : decode 0x0000#16 = .ill ∧ decode 0x5000#16 = .fin := by decide

theorem test_decode_cursor : decode 0x1000#16 = .cinit ∧ decode 0x1114#16 = .chk 20 ∧ decode 0x11FF#16 = .chk 255 ∧
    decode 0x1100#16 = .chk 0 ∧ decode 0x1228#16 = .adv 40 := by decide

theorem test_decode_walker : decode 0x2000#16 = .eth ∧ decode 0x2100#16 = .vlan ∧ decode 0x2207#16 = .jp4 0x07 ∧
    decode 0x223F#16 = .jp4 0x3F ∧ decode 0x230D#16 = .jp6 0x0D ∧ decode 0x2400#16 = .unsup := by decide

theorem test_decode_classifier : decode 0x3000#16 = .c4dst ∧ decode 0x3100#16 = .c4frag ∧ decode 0x3200#16 = .c4l4 ∧
    decode 0x3300#16 = .c6l4 ∧ decode 0x3400#16 = .cudp := by decide

theorem test_decode_forwarder : decode 0x4000#16 = .ttl4 ∧ decode 0x4100#16 = .q4 ∧ decode 0x4200#16 = .ttl6 ∧
    decode 0x4300#16 = .q6 ∧ decode 0x4400#16 = .fib ∧ decode 0x4500#16 = .fdisp := by decide

theorem test_decode_rewrite : decode 0x4600#16 = .dec4 ∧ decode 0x4700#16 = .dec6 ∧ decode 0x4800#16 = .l2rw ∧
    decode 0x4900#16 = .redir := by decide

theorem test_decode_rejects_by_name : decodeRow 0x1001#16 = .error .nonzeroImmediate ∧
    decodeRow 0x5001#16 = .error .nonzeroImmediate ∧ decodeRow 0x2247#16 = .error .targetTooLarge ∧
    decodeRow 0x22C7#16 = .error .targetTooLarge ∧ decodeRow 0x2500#16 = .error .unknownOpcode ∧
    decodeRow 0x3500#16 = .error .unknownOpcode ∧ decodeRow 0x4A00#16 = .error .unknownOpcode ∧
    decodeRow 0x5100#16 = .error .unknownOpcode ∧ decodeRow 0xFFFF#16 = .error .unknownOpcode := by decide

theorem test_decode_illegal_is_ill : decode 0x0001#16 = .ill ∧ decode 0x1001#16 = .ill ∧ decode 0x2247#16 = .ill ∧
    decode 0xFFFF#16 = .ill := by decide

theorem test_decodeTableWord : decodeTableWord 16 0x1114 = some (.chk 20) := by decide

/-! ### WellFormed: each check refuses an ill-formed term -/

theorem test_illegal_absent_opcode : illegalWord 0x0100#16 = true ∧ illegalWord 0x1300#16 = true ∧
    illegalWord 0x2500#16 = true ∧ illegalWord 0x3F00#16 = true ∧ illegalWord 0x4A00#16 = true ∧
    illegalWord 0xFF00#16 = true := by decide

theorem test_illegal_op_zero : illegalWord 0x0000#16 = true ∧ illegalWord 0x00FF#16 = true := by decide

theorem test_illegal_format_N_immediate : illegalWord 0x5001#16 = true ∧ illegalWord 0x2180#16 = true := by decide

theorem test_illegal_format_T_target : illegalWord 0x2240#16 = true ∧ illegalWord 0x23C0#16 = true := by decide

theorem test_legal_boundaries : legalWord 0x11FF#16 = true ∧ legalWord 0x1200#16 = true ∧ legalWord 0x233F#16 = true ∧
    legalWord 0x5000#16 = true := by decide

theorem test_rom_accepted : romWellFormed romDropFilter = true ∧ romWellFormed romForwarder = true := by decide

theorem test_rom_refused_length : romWellFormed (romDropFilter ++ [0x0000]) = false := by decide

theorem test_rom_refused_illegal_word : romWellFormed (romDropFilter.set 0x20 0x1001) = false := by decide

theorem test_rom_refused_no_cinit : romWellFormed (romDropFilter.set 0x00 0x2000) = false := by decide

theorem test_rom_refused_no_fin : romWellFormed (romForwarder.set 0x3F 0x0000) = false := by decide

theorem test_rom_refused_third_vlan : romWellFormed (romForwarder.set 0x20 0x2100) = false := by decide

/-- R122, R123: the words at the branch targets and the last address. -/
theorem test_rom_contents : romDropFilter.getD 0x07 0 = 0x1114#16 ∧ romDropFilter.getD 0x0D 0 = 0x1128#16 ∧
    romDropFilter.getD 0x11 0 = 0x3400#16 ∧ romForwarder.getD 0x0F 0 = 0x1128#16 ∧ romForwarder.getD 0x16 0 = 0x4900#16 ∧
    romForwarder.getD 0x3F 0 = 0x5000#16 := by decide

/-! ### One step of each micro-operation -/

/-- P1, pc 00. -/
theorem test_cinit : (after .cinit 0 { unitAt 0x00 frame4 9 9 9 with act := none }).map
    (fun u => (u.pc, u.pos, u.endOff, u.l3, u.proto, u.vdepth, u.act, u.cause)) =
    some (0x01, some 0, some 42, some 0, some 0, some 0, some 2, some 0) := by decide

/-- R80: 14 + 20 ≤ 34 passes. -/
theorem test_chk_exact : verdict (after (.chk 20) 0 { unitAt 0x07 frame4 14 14 0x0800 with endOff := some 34 }) =
    some (0x08, some 2, some 0) := by decide

/-- R80: 14 + 20 > 33 resolves PASS/TRUNC. -/
theorem test_chk_short : verdict (after (.chk 20) 0 { unitAt 0x07 frame4 14 14 0x0800 with endOff := some 33 }) =
    some (0x3F, some 2, some 1) := by decide

/-- R81: pos 14, ADV 40 gives pos 54. -/
theorem test_adv : (after (.adv 40) 0 { unitAt 0x0F frame6 14 14 0x86DD with endOff := some 74 }).map (fun u => (u.pc, u.pos)) =
    some (0x10, some 54) := by decide

/-- R78: the sum does not wrap at 2^32. -/
theorem test_adv_no_wrap : (after (.adv 255) 0 (unitAt 0x0F frame4 0xFFFFFFF0 14 0x86DD)).map (fun u => (u.pc, u.pos, u.cause)) =
    some (0x3F, some 0xFFFFFFF0, some 1) := by decide

/-- P1, pc 01. -/
theorem test_eth : (after .eth 0 (unitAt 0x01 frame4 0 0 0)).map (fun u => (u.pc, u.proto, u.pos)) =
    some (0x02, some 0x0800, some 14) := by decide

/-- V-W2: 13 bytes. -/
theorem test_eth_short : verdict (after .eth 0 { unitAt 0x01 frame4 0 0 0 with endOff := some 13 }) =
    some (0x3F, some 2, some 1) := by decide

/-- R86: proto 0x8100 at pos 14, bytes 16..17 = 1c 12 here, gives pos 18 and vdepth 1. -/
theorem test_vlan_tag : (after .vlan 0 (unitAt 0x02 frame4 14 0 0x8100)).map (fun u => (u.pc, u.proto, u.pos, u.vdepth)) =
    some (0x03, some 0x001C, some 18, some 1) := by decide

/-- P1, pc 02: no tag. -/
theorem test_vlan_no_tag : (after .vlan 0 (unitAt 0x02 frame4 14 0 0x0800)).map (fun u => (u.pc, u.proto, u.pos, u.vdepth)) =
    some (0x03, some 0x0800, some 14, some 0) := by decide

/-- R87: proto 0x0800 and pos 22, JP4 0x07 gives l3 22 and pc 0x07. -/
theorem test_jp4_taken : (after (.jp4 0x07) 0 (unitAt 0x04 frame4 22 0 0x0800)).map (fun u => (u.pc, u.l3)) =
    some (0x07, some 22) := by decide

/-- P4a, pc 04. -/
theorem test_jp4_not_taken : (after (.jp4 0x07) 0 (unitAt 0x04 frame6 14 0 0x86DD)).map (fun u => (u.pc, u.l3)) =
    some (0x05, some 0) := by decide

/-- R88: proto 0x86DD and pos 14, JP6 0x0D gives l3 14 and pc 0x0D. -/
theorem test_jp6_taken : (after (.jp6 0x0D) 0 (unitAt 0x05 frame6 14 0 0x86DD)).map (fun u => (u.pc, u.l3)) =
    some (0x0D, some 14) := by decide

theorem test_jp6_not_taken : (after (.jp6 0x0D) 0 (unitAt 0x05 frame6 14 0 0x0806)).map (fun u => (u.pc, u.l3)) =
    some (0x06, some 0) := by decide

/-- R89. -/
theorem test_unsup : verdict (after .unsup 0 (unitAt 0x06 frame4 14 0 0x0806)) = some (0x3F, some 2, some 2) := by decide

/-- R93: the first octet under CFG[0] = 0, the last under CFG[0] = 1; the P1 frame with its last destination octet 255. -/
theorem test_c4dst_first : verdict (after .c4dst 0 (unitAt 0x08 (frame4.set 33 255) 14 14 0x0800)) =
    some (0x09, some 2, some 0) := by decide

theorem test_c4dst_last : verdict (after .c4dst 1 (unitAt 0x08 (frame4.set 33 255) 14 14 0x0800)) =
    some (0x3F, some 1, some 6) := by decide

/-- R94: ff = 0x4000 gives no match. -/
theorem test_c4frag_df : verdict (after .c4frag 0 (unitAt 0x09 (frame4.set 20 0x40) 14 14 0x0800)) =
    some (0x0A, some 2, some 0) := by decide

/-- R94: ff = 0x2000 drops. -/
theorem test_c4frag_mf : verdict (after .c4frag 0 (unitAt 0x09 (frame4.set 20 0x20) 14 14 0x0800)) =
    some (0x3F, some 1, some 7) := by decide

/-- R95: protocol 17, IHL 6, l3 14 gives pos 38. -/
theorem test_c4l4_ihl : (after .c4l4 0 (unitAt 0x0A (frame4.set 14 0x46) 14 14 0x0800)).map (fun u => (u.pc, u.pos)) =
    some (0x0B, some 38) := by decide

/-- R95: IHL 4 resolves PASS/BAD_IHL under CFG[1] = 0. -/
theorem test_c4l4_bad_ihl : verdict (after .c4l4 0 (unitAt 0x0A (frame4.set 14 0x44) 14 14 0x0800)) =
    some (0x3F, some 2, some 13) := by decide

/-- R96: next header 6 gives PASS/R4_DEFAULT. -/
theorem test_c6l4_tcp : verdict (after .c6l4 0 (unitAt 0x0E (frame6.set 20 6) 14 14 0x86DD)) =
    some (0x3F, some 2, some 9) := by decide

theorem test_c6l4_udp : verdict (after .c6l4 0 (unitAt 0x0E frame6 14 14 0x86DD)) = some (0x0F, some 2, some 0) := by decide

/-- P1, pc 0C: destination port 53. -/
theorem test_cudp_dns : verdict (after .cudp 0 (unitAt 0x0C frame4 34 14 0x0800)) = some (0x3F, some 1, some 8) := by decide

/-- R97: ports 1000 and 54. -/
theorem test_cudp_default : verdict (after .cudp 0 (unitAt 0x0C (frame4.set 37 54) 34 14 0x0800)) =
    some (0x3F, some 2, some 9) := by decide

/-- R101: TTL 1 resolves PASS/TTL_GUARD. -/
theorem test_ttl4_guard : verdict (after .ttl4 0 (unitAt 0x08 (frame4.set 22 1) 14 14 0x0800)) =
    some (0x3F, some 2, some 10) := by decide

theorem test_ttl4_passes : verdict (after .ttl4 0 (unitAt 0x08 (frame4.set 22 2) 14 14 0x0800)) =
    some (0x09, some 2, some 0) := by decide

/-- R103. -/
theorem test_ttl6_guard : verdict (after .ttl6 0 (unitAt 0x10 (frame6.set 21 1) 14 14 0x86DD)) =
    some (0x3F, some 2, some 10) := by decide

theorem test_ttl6_passes : verdict (after .ttl6 0 (unitAt 0x10 frame6 14 14 0x86DD)) = some (0x11, some 2, some 0) := by decide

/-- P2, pc 09: {IPV4, tos 0, tlen 28, l4p 17, 10.0.0.1, 10.0.0.2, iif 3}. -/
theorem test_q4 : (after .q4 0 (unitAt 0x09 frame4 14 14 0x0800)).map (fun u => (u.pc, u.q)) =
    some (0x0A, some ⟨.ipv4, 0, 17, 28, [10, 0, 0, 1], [10, 0, 0, 2], 3⟩) := by decide

/-- V-F6's query: tos 0x0ABCDEF1, tlen 0, l4p 17, 2001:db8::1, 2001:db8::2, iif 3. -/
theorem test_q6 : (after .q6 0 (unitAt 0x11 frame6 14 14 0x86DD)).map (fun u => (u.pc, u.q)) =
    some (0x12, some ⟨.ipv6, 0x0ABCDEF1, 17, 0, [0x20, 1, 0xd, 0xb8, 0, 0, 0, 0, 0, 0, 0, 0, 0, 0, 0, 1],
      [0x20, 1, 0xd, 0xb8, 0, 0, 0, 0, 0, 0, 0, 0, 0, 0, 0, 2], 3⟩) := by decide

/-- P2, pc 0A: the answer that stands ready becomes R and is consumed. -/
theorem test_fib : (after .fib 0 { unitAt 0x0A frame4 14 14 0x0800 with q := some default, lookupAnswers := [answerOk] }).map
    (fun u => (u.pc, u.r, u.lookupAnswers, u.draws)) = some (0x0B, some answerOk, [], 0) := by decide

/-- X5: FIB with no Q. -/
theorem test_fib_unwritten : (after .fib 0 (unitAt 0x01 frame4 14 14 0x0800)).map (fun u => (u.st, u.pc)) =
    some (.fault .unwritten, 0x01) := by decide

/-- R106: rc 3 drops HARD; rc 9 passes SOFT (V-F4.9). -/
theorem test_fdisp_hard : verdict (after .fdisp 0 { unitAt 0x0B frame4 14 14 0x0800 with r := some ⟨3, 7, 0, 0⟩ }) =
    some (0x3F, some 1, some 4) := by decide

theorem test_fdisp_soft : verdict (after .fdisp 0 { unitAt 0x0B frame4 14 14 0x0800 with r := some ⟨9, 7, 0, 0⟩ }) =
    some (0x3F, some 2, some 3) := by decide

/-- P2, pc 0C: F[22] = 0x04, F[24..25] = 0x909B; the protocol byte is untouched. -/
theorem test_dec4 : bytesAt (after .dec4 0 (unitAt 0x0C frame4 14 14 0x0800)) [21, 22, 23, 24, 25, 26] =
    some [0x00, 0x04, 0x11, 0x90, 0x9B, 0x0A] := by decide

/-- V-R2: checksum 0xFEFF under CSUM_FOLD = 1 becomes 0x0000. -/
theorem test_dec4_eac_ge : bytesAt (after .dec4 4 (unitAt 0x0C ((frame4.set 24 0xFE).set 25 0xFF) 14 14 0x0800)) [24, 25] =
    some [0x00, 0x00] := by decide

/-- V-F6: byte 21 goes 0x40 to 0x3F. -/
theorem test_dec6 : bytesAt (after .dec6 0 (unitAt 0x14 frame6 14 14 0x86DD)) [20, 21, 22] = some [0x11, 0x3F, 0x20] := by decide

/-- R113: frame bytes 0..11 = 11 22 33 44 55 66 0A 0B 0C 0D 0E 0F, and byte 12 is untouched. -/
theorem test_l2rw : bytesAt (after .l2rw 0 { unitAt 0x0D frame4 14 14 0x0800 with r := some answerOk })
    [0, 1, 2, 3, 4, 5, 6, 7, 8, 9, 10, 11, 12] =
    some [0x11, 0x22, 0x33, 0x44, 0x55, 0x66, 0x0A, 0x0B, 0x0C, 0x0D, 0x0E, 0x0F, 0x08] := by decide

/-- X6: L2RW with no R. -/
theorem test_l2rw_unwritten : (after .l2rw 0 (unitAt 0x01 frame4 14 14 0x0800)).map (fun u => u.st) =
    some (.fault .unwritten) := by decide

/-- R114: oif 7 gives tgt 7 and REDIRECT. -/
theorem test_redir : (after .redir 0 { unitAt 0x0E frame4 14 14 0x0800 with r := some answerOk }).map
    (fun u => (u.pc, u.tgt, u.act, u.cause)) = some (0x3F, some 7, some 4, some 11) := by decide

/-- V-F7: a device-map miss under DEVMAP_CHECK = 1. -/
theorem test_redir_miss : (after .redir 8 { unitAt 0x0E frame4 14 14 0x0800 with r := some answerOk, devmapAnswers := [false] }).map
    (fun u => (u.pc, u.tgt, u.act, u.cause)) = some (0x3F, none, some 0, some 12) := by decide

/-- P1's end: DROP is counted with 42 bytes and returned; pc stays (R120). -/
theorem test_fin : (after .fin 0 { unitAt 0x3F frame4 34 14 0x0800 with act := some 1 }).map
    (fun u => (u.st, u.pc, u.ct.drop, u.ct.pass, u.responses)) =
    some (.idle, 0x3F, ⟨1, 42⟩, ⟨0, 0⟩, [⟨1, none, frame4⟩]) := by decide

/-- L2.7: CT[0][1] = (2^64 − 1, 2^64 − 10) and a 42-byte DROP become (0, 32). -/
theorem test_fin_wraps : (after .fin 0 { unitAt 0x3F frame4 34 14 0x0800 with
    act := some 1, ct := { Slice.zero with drop := ⟨0xFFFFFFFFFFFFFFFF, 0xFFFFFFFFFFFFFFF6⟩ } }).map (fun u => u.ct.drop) =
    some ⟨0, 32⟩ := by decide

/-- X3: ILLEGAL, nothing else changes. -/
theorem test_ill : after .ill 0 (unitAt 0x01 frame4 0 0 0) = some { unitAt 0x01 frame4 0 0 0 with st := .fault .illegal } := by
  decide

/-- X1: ETH before any CINIT. -/
theorem test_fault_unwritten : (after .eth 0 { unitAt 0x00 frame4 0 0 0 with pos := none }).map (fun u => (u.st, u.pc)) =
    some (.fault .unwritten, 0x00) := by decide

/-- X2: C4DST reads offset 16 of a 14-byte frame. -/
theorem test_fault_oob_read : (after .c4dst 0 (unitAt 0x01 (frame4.take 14) 0 0 0)).map (fun u => (u.st, u.pc)) =
    some (.fault .oobRead, 0x01) := by decide

/-- R49: L2RW on a frame of 11 bytes writes nothing. -/
theorem test_fault_oob_write : (after .l2rw 0 { unitAt 0x01 (frame4.take 11) 0 0 0 with r := some answerOk }).map
    (fun u => (u.st, u.frame.bytes 0 11)) = some (.fault .oobWrite, frame4.take 11) := by decide

/-! ### Operations -/

/-- R110: the rows of 95_test_vectors.md L2.6. -/
theorem test_csumTtl_eac : [0x0000, 0x00FF, 0x0100, 0xB1B6, 0xFEFE, 0xFEFF, 0xFF00, 0xFFFE, 0xFFFF].map (csumTtl 0) =
    [0x0100, 0x01FF, 0x0200, 0xB2B6, 0xFFFE, 0xFFFF, 0x0001, 0x00FF, 0x0100] := by decide

theorem test_csumTtl_eac_ge : [0x0000, 0x00FF, 0x0100, 0xB1B6, 0xFEFE, 0xFEFF, 0xFF00, 0xFFFE, 0xFFFF].map (csumTtl 4) =
    [0x0100, 0x01FF, 0x0200, 0xB2B6, 0xFFFE, 0x0000, 0x0001, 0x00FF, 0x0100] := by decide

/-- Writing the byte an unlisted offset reads as removes the cell. -/
theorem test_memory_canonical : (Memory.ofBytes [1, 0, 2]).write 0 0 = [(2, 2)] ∧
    Memory.ofBytes [1, 0, 2] = [(0, 1), (2, 2)] := by decide

/-- R76, R43: a 4-byte big-endian read. -/
theorem test_memRead : (unitAt 0 frame6 0 0 0).memRead 14 4 = .ok 0x6ABCDEF1 := by decide

/-- The frames of the reset state have the canonical form. -/
theorem test_reset_memory : State.reset.units.all (fun u => u.frame.wf) = true := by decide

/-! ### The machine's steps -/

/-- A step fetches at pc from the ROM PROG selects: at pc 0x07 CHK 20 of ROM 0 passes on P1's frame. -/
theorem test_step_fetches : (unitAfter (step (coreOf 1 0 (unitAt 0x07 frame4 14 14 0x0800)))).map (fun u => u.pc) = some 0x08 := by
  decide

/-- The word placed by withFetchWord runs as the first instruction after reset. -/
theorem test_withFetchWord : (unitAfter (step (State.reset.withFetchWord 16 0x1000))).map (fun u => (u.st, u.pc, u.act)) =
    some (.run, 0x01, some 2) := by decide

/-- P6: a test-ROM word at 0x04 while PROG selects ROM 1 (2). -/
theorem test_withFetchWord_rom1 :
    (unitAfter (step ((coreOf 2 0 (unitAt 0x04 frame4 14 14 0x0800)).withFetchWord 16 0x1115))).map (fun u => u.pc) = some 0x05 := by
  decide

/-- R149, then R125: LOAD(1) attaches ROM 0, and the request starts unit 0. -/
theorem test_load : (match step { State.reset with agenda := [.load 1] } with
    | .next t => some (t.prog, t.units.map (fun u => u.ct))
    | _ => none) = some (1, [Slice.zero, Slice.zero]) := by decide

theorem test_request : (unitAfter (step { coreOf 1 0 UnitState.powerOn with agenda := [.request request4] })).map
    (fun u => ((u.st, u.pc, u.len), u.iif, u.pos, u.frame.bytes 0 42)) = some ((.run, 0x00, 42), 3, none, frame4) := by decide

/-- R138: the monitor reads one field. -/
theorem test_monitor : (match step { coreOf 1 0 { UnitState.powerOn with ct := { Slice.zero with pass := ⟨2, 44⟩ } } with
      agenda := [.monitor 0 2 .bys] } with
    | .next t => some t.monitorLog
    | _ => none) = some [⟨0, 2, .bys, 44⟩] := by decide

/-! ### Witnesses: a concrete state and operands for the hypotheses of each obligation that has any, each clause at a boundary -/

/-- The state of a unit of `coreOf`. -/
theorem cur_coreOf (p : BitVec 2) (c : BitVec 4) (u : UnitState) : (coreOf p c u).cur = some u := rfl

/-- Unit 0 in FAULT. -/
def faulted : UnitState := { unitAt 0x01 frame4 0 0 0 with st := .fault .illegal }

theorem witness_EncodeOfDecode : legalWord 0x11FF#16 = true ∧ legalWord 0x5000#16 = true := by decide

theorem witness_StepRunsDecodedInstruction :
    ((coreOf 1 0 (unitAt 0x3F frame4 0 0 0)).agenda = [] ∧ (unitAt 0x3F frame4 0 0 0).st = .run ∧
      (coreOf 1 0 (unitAt 0x3F frame4 0 0 0)).prog = 1 ∧ romDropFilter[0x3F]? = some 0x5000 ∧
      (coreOf 2 0 (unitAt 0x00 frame4 0 0 0)).prog = 2 ∧ romForwarder[0x00]? = some 0x1000) ∧
    ({ coreOf 2 0 (unitAt 0x3F frame4 0 0 0) with agenda := [.unitStep 0], turn := 1 } : State).units[0]? =
      some (unitAt 0x3F frame4 0 0 0) := by decide

theorem witness_PlacedWordRunsNext : State.reset.cur = some UnitState.powerOn := by decide

theorem witness_IdleUnitWaits : State.reset.agenda = [] ∧ State.reset.cur = some UnitState.powerOn ∧
    UnitState.powerOn.st = .idle ∧
    ({ coreOf 1 0 faulted with agenda := [.unitStep 1, .load 1] } : State).units[1]? = some UnitState.powerOn := by decide

theorem witness_FaultedUnitHasNoStep : (coreOf 1 0 faulted).agenda = [] ∧ (coreOf 1 0 faulted).cur = some faulted ∧
    faulted.st = .fault .illegal ∧
    ({ coreOf 1 0 faulted with agenda := [.unitStep 0], turn := 1 } : State).units[0]? = some faulted := by decide

theorem witness_FaultIsSticky : (coreOf 1 0 faulted).units[0]? = some faulted ∧ faulted.st = .fault .illegal ∧
    ∃ t, step { coreOf 1 0 faulted with turn := 1 } = .next t :=
  ⟨rfl, rfl, exists_next (by decide)⟩

theorem witness_LoadAttachesAndZeroes :
    (({ State.reset with agenda := [.load 2] } : State).units.all (fun u => decide (u.st = .idle)) = true ∧
      (2 : BitVec 2) = 2) ∧
    ((0 : BitVec 2) ≠ 1 ∧ (0 : BitVec 2) ≠ 2 ∧ (3 : BitVec 2) ≠ 1 ∧ (3 : BitVec 2) ≠ 2) ∧
    ∃ u ∈ (coreOf 1 0 (unitAt 0 frame4 0 0 0)).units, u.st ≠ .idle := by decide

theorem witness_OnlyLoadWritesProg : (∃ t, step State.reset = .next t) ∧
    ∃ t, step { State.reset with agenda := [.load 1] } = .next t :=
  ⟨exists_next (by decide), exists_next (by decide)⟩

/-- The longest frame LEN_MAX admits, and PROG 1 and 2. -/
theorem witness_RequestStartsInvocation :
    ({ coreOf 2 0 UnitState.powerOn with lenMax := 42 } : State).units[request4.unit]? = some UnitState.powerOn ∧
    UnitState.powerOn.st = .idle ∧ ((coreOf 2 0 UnitState.powerOn).prog = 1 ∨ (coreOf 2 0 UnitState.powerOn).prog = 2) ∧
    request4.bytes.length = request4.len.toNat ∧
    request4.len.toNat ≤ ({ coreOf 2 0 UnitState.powerOn with lenMax := 42 } : State).lenMax.toNat := by decide

theorem witness_RequestWithoutMove :
    (coreOf 1 0 UnitState.powerOn).units[2]? = none ∧
    (unitAt 0 frame4 0 0 0).st ≠ .idle ∧ (State.reset.prog ≠ 1 ∧ State.reset.prog ≠ 2) ∧
    (⟨0, frame4, 41, 3⟩ : Request).bytes.length ≠ (41 : Offset).toNat ∧
    ({ coreOf 1 0 UnitState.powerOn with lenMax := 41 } : State).lenMax.toNat < request4.len.toNat := by decide

theorem witness_MonitorReadReturnsField :
    (coreOf 1 0 UnitState.powerOn).units[1]? = some UnitState.powerOn ∧
    UnitState.powerOn.ct.get? 0 = some ⟨0, 0⟩ ∧ UnitState.powerOn.ct.get? 4 = some ⟨0, 0⟩ := by decide

/-- `end` = 54: a read of 16 bytes that ends exactly at it, and one of 1 byte past it. -/
theorem witness_FrameReadIsBigEndian : (unitAt 0 frame6 0 0 0).endOff = some 54 ∧ 38 + 16 ≤ (54 : Offset).toNat ∧
    (54 : Offset).toNat < 54 + 1 := by decide

theorem witness_FrameWriteReadsBack : (unitAt 0 frame4 0 0 0).endOff = some 42 ∧ 36 + 6 ≤ (42 : Offset).toNat ∧
    0xFFFFFFFFFFFF < 256 ^ 6 ∧ (42 : Offset).toNat < 37 + 6 := by decide

theorem witness_CinitInitialises : (coreOf 1 0 (unitAt 0x00 frame4 0 0 0)).cur = some (unitAt 0x00 frame4 0 0 0) := by decide

/-- pos 14 and `end` 42: n = 28 ends exactly at `end`, n = 29 is one too many. -/
theorem witness_ChkChecksHeader :
    (coreOf 1 0 (unitAt 0x07 frame4 14 14 0)).cur = some (unitAt 0x07 frame4 14 14 0) ∧
    (unitAt 0x07 frame4 14 14 0).pos = some 14 ∧ (unitAt 0x07 frame4 14 14 0).endOff = some 42 ∧
    (14 : Offset).toNat + (28 : BitVec 8).toNat ≤ (42 : Offset).toNat ∧
    (42 : Offset).toNat < (14 : Offset).toNat + (29 : BitVec 8).toNat := by decide

theorem witness_AdvAdvancesCursor :
    (coreOf 1 0 (unitAt 0x0F frame4 14 14 0)).cur = some (unitAt 0x0F frame4 14 14 0) ∧
    (unitAt 0x0F frame4 14 14 0).pos = some 14 ∧ (unitAt 0x0F frame4 14 14 0).endOff = some 42 ∧
    (14 : Offset).toNat + (28 : BitVec 8).toNat ≤ (42 : Offset).toNat ∧
    (42 : Offset).toNat < (14 : Offset).toNat + (29 : BitVec 8).toNat := by decide

/-- Frames of 14 and of 13 bytes. -/
theorem witness_EthReadsProtocolField :
    (coreOf 1 0 (unitAt 0x01 (frame4.take 14) 0 0 0)).cur = some (unitAt 0x01 (frame4.take 14) 0 0 0) ∧
    (unitAt 0x01 (frame4.take 14) 0 0 0).pos = some 0 ∧ (unitAt 0x01 (frame4.take 14) 0 0 0).endOff = some 14 ∧
    (0 : Offset).toNat + 14 ≤ (14 : Offset).toNat ∧
    (unitAt 0x01 (frame4.take 13) 0 0 0).endOff = some 13 ∧ (13 : Offset).toNat < (0 : Offset).toNat + 14 := by decide

/-- No tag; each tag protocol; a tag that ends exactly at `end` and one that does not fit; vdepth 0 and 3. -/
theorem witness_VlanUnwrapsOneTag :
    (coreOf 1 0 (unitAt 0x02 frame4 38 0 0x8100)).cur = some (unitAt 0x02 frame4 38 0 0x8100) ∧
    ((0x0800 : BitVec 16) ≠ 0x8100 ∧ (0x0800 : BitVec 16) ≠ 0x88A8) ∧
    (unitAt 0x02 frame4 38 0 0x8100).proto = some 0x8100 ∧ (unitAt 0x02 frame4 39 0 0x88A8).proto = some 0x88A8 ∧
    (unitAt 0x02 frame4 38 0 0x8100).pos = some 38 ∧ (unitAt 0x02 frame4 38 0 0x8100).endOff = some 42 ∧
    (38 : Offset).toNat + 4 ≤ (42 : Offset).toNat ∧ (42 : Offset).toNat < (39 : Offset).toNat + 4 ∧
    (unitAt 0x02 frame4 38 0 0x8100).vdepth = some 0 ∧
    ({ unitAt 0x02 frame4 38 0 0x8100 with vdepth := some 3 } : UnitState).vdepth = some 3 := by decide

theorem witness_Jp4BranchesOnIPv4 :
    (coreOf 1 0 (unitAt 0x04 frame4 14 0 0x0800)).cur = some (unitAt 0x04 frame4 14 0 0x0800) ∧
    (unitAt 0x04 frame4 14 0 0x0800).proto = some 0x0800 ∧ (unitAt 0x04 frame4 14 0 0x0800).pos = some 14 ∧
    (0x0801 : BitVec 16) ≠ 0x0800 := by decide

theorem witness_Jp6BranchesOnIPv6 :
    (coreOf 1 0 (unitAt 0x05 frame6 14 0 0x86DD)).cur = some (unitAt 0x05 frame6 14 0 0x86DD) ∧
    (unitAt 0x05 frame6 14 0 0x86DD).proto = some 0x86DD ∧ (unitAt 0x05 frame6 14 0 0x86DD).pos = some 14 ∧
    (0x86DC : BitVec 16) ≠ 0x86DD := by decide

theorem witness_UnsupResolvesPass : (coreOf 1 0 (unitAt 0x06 frame4 14 0 0)).cur = some (unitAt 0x06 frame4 14 0 0) := by decide

/-- CFG[0] = 0 and 1, `end` exactly past the octet; octets 0, 255 and 1. -/
theorem witness_C4dstDropsOctet0Or255 :
    (coreOf 1 1 (unitAt 0x08 ((frame4.take 34).set 33 255) 14 14 0)).cur = some (unitAt 0x08 ((frame4.take 34).set 33 255) 14 14 0) ∧
    (33 = (14 : Offset).toNat + (if (1 : BitVec 4).getLsbD 0 then 19 else 16) ∧ 33 + 1 ≤ (34 : Offset).toNat) ∧
    (30 = (14 : Offset).toNat + (if (0 : BitVec 4).getLsbD 0 then 19 else 16) ∧ 30 + 1 ≤ (31 : Offset).toNat) ∧
    (unitAt 0x08 ((frame4.take 34).set 33 255) 14 14 0).frame.read 33 = 0xFF ∧
    (unitAt 0x08 ((frame4.take 31).set 30 0) 14 14 0).frame.read 30 = 0x00 ∧
    ((unitAt 0x08 ((frame4.take 31).set 30 1) 14 14 0).frame.read 30 ≠ 0x00 ∧
      (unitAt 0x08 ((frame4.take 31).set 30 1) 14 14 0).frame.read 30 ≠ 0xFF) := by decide

/-- Bit 13 alone, the lowest offset bit alone, and bits 15 and 14 alone. -/
theorem witness_C4fragDropsFragments :
    (coreOf 1 0 (unitAt 0x09 (frame4.take 22) 14 14 0)).cur = some (unitAt 0x09 (frame4.take 22) 14 14 0) ∧
    (unitAt 0x09 (frame4.take 22) 14 14 0).endOff = some 22 ∧ (14 : Offset).toNat + 8 ≤ (22 : Offset).toNat ∧
    (0x20 : Byte).getLsbD 5 = true ∧ (0x01 : Byte) ≠ 0 ∧
    ((0xC0 : Byte).getLsbD 5 = false ∧ (0xC0 : Byte) &&& 0x1F = 0 ∧ (0x00 : Byte) = 0) := by decide

/-- `end` exactly past the protocol byte; not UDP; IHL 4, 5 and 15; both modes; a sum that does not fit 32 bits. -/
theorem witness_C4l4LocatesUdp :
    (coreOf 1 0 (unitAt 0x0A (frame4.take 24) 14 14 0)).cur = some (unitAt 0x0A (frame4.take 24) 14 14 0) ∧
    (unitAt 0x0A (frame4.take 24) 14 14 0).endOff = some 24 ∧ (14 : Offset).toNat + 10 ≤ (24 : Offset).toNat ∧
    (unitAt 0x0A (frame4.take 24) 14 14 0).frame.read 23 = 17 ∧
    (unitAt 0x0A ((frame4.take 24).set 23 6) 14 14 0).frame.read 23 ≠ 17 ∧
    ((0 : BitVec 4).getLsbD 1 = false ∧ (2 : BitVec 4).getLsbD 1 = true) ∧
    (4 = ((unitAt 0x0A (frame4.set 14 0x44) 14 14 0).frame.read 14).toNat % 16 ∧
     5 = ((unitAt 0x0A frame4 14 14 0).frame.read 14).toNat % 16 ∧
     15 = ((unitAt 0x0A (frame4.set 14 0x4F) 14 14 0).frame.read 14).toNat % 16) ∧
    (let u : UnitState := { unitAt 0x0A [] 0 0xFFFFFFF0 0 with frame := [(0xFFFFFFF9, 17)], endOff := some 0xFFFFFFFF }
     (0xFFFFFFF0 : Offset).toNat + 10 ≤ (0xFFFFFFFF : Offset).toNat ∧ u.frame.read 0xFFFFFFF9 = 17 ∧
       ¬ (0xFFFFFFF0 : Offset).toNat + 20 < 2 ^ 32) := by decide

theorem witness_C6l4PassesNonUdp :
    (coreOf 1 0 (unitAt 0x0E (frame6.take 21) 14 14 0)).cur = some (unitAt 0x0E (frame6.take 21) 14 14 0) ∧
    (unitAt 0x0E (frame6.take 21) 14 14 0).endOff = some 21 ∧ (14 : Offset).toNat + 7 ≤ (21 : Offset).toNat ∧
    (unitAt 0x0E (frame6.take 21) 14 14 0).frame.read 20 = 17 ∧
    (unitAt 0x0E ((frame6.take 21).set 20 16) 14 14 0).frame.read 20 ≠ 17 := by decide

theorem witness_CudpDropsPort53 :
    (coreOf 1 0 (unitAt 0x0C (frame4.take 38) 34 14 0)).cur = some (unitAt 0x0C (frame4.take 38) 34 14 0) ∧
    (unitAt 0x0C (frame4.take 38) 34 14 0).endOff = some 38 ∧ (34 : Offset).toNat + 4 ≤ (38 : Offset).toNat ∧
    53 = ((unitAt 0x0C frame4 34 14 0).frame.read 36).toNat * 256 + ((unitAt 0x0C frame4 34 14 0).frame.read 37).toNat ∧
    1000 = ((unitAt 0x0C frame4 34 14 0).frame.read 34).toNat * 256 + ((unitAt 0x0C frame4 34 14 0).frame.read 35).toNat ∧
    ((unitAt 0x0C (frame4.set 37 54) 34 14 0).frame.read 37).toNat ≠ 53 := by decide

/-- Hop counts 1 and 2, `end` exactly past the byte. -/
theorem witness_Ttl4GuardsHopCount :
    (coreOf 2 0 (unitAt 0x08 (frame4.take 23) 14 14 0)).cur = some (unitAt 0x08 (frame4.take 23) 14 14 0) ∧
    (unitAt 0x08 (frame4.take 23) 14 14 0).endOff = some 23 ∧ (14 : Offset).toNat + 9 ≤ (23 : Offset).toNat ∧
    ((unitAt 0x08 ((frame4.take 23).set 22 1) 14 14 0).frame.read 22).toNat ≤ 1 ∧
    1 < ((unitAt 0x08 ((frame4.take 23).set 22 2) 14 14 0).frame.read 22).toNat := by decide

theorem witness_Ttl6GuardsHopCount :
    (coreOf 2 0 (unitAt 0x10 (frame6.take 22) 14 14 0)).cur = some (unitAt 0x10 (frame6.take 22) 14 14 0) ∧
    (unitAt 0x10 (frame6.take 22) 14 14 0).endOff = some 22 ∧ (14 : Offset).toNat + 8 ≤ (22 : Offset).toNat ∧
    ((unitAt 0x10 ((frame6.take 22).set 21 1) 14 14 0).frame.read 21).toNat ≤ 1 ∧
    1 < ((unitAt 0x10 ((frame6.take 22).set 21 2) 14 14 0).frame.read 21).toNat := by decide

theorem witness_Q4BuildsQuery :
    (coreOf 2 0 (unitAt 0x09 (frame4.take 34) 14 14 0)).cur = some (unitAt 0x09 (frame4.take 34) 14 14 0) ∧
    (unitAt 0x09 (frame4.take 34) 14 14 0).endOff = some 34 ∧ (14 : Offset).toNat + 20 ≤ (34 : Offset).toNat ∧
    (28 : BitVec 16).toNat = ((unitAt 0x09 frame4 14 14 0).frame.read 16).toNat * 256 +
      ((unitAt 0x09 frame4 14 14 0).frame.read 17).toNat := by decide

theorem witness_Q6BuildsQuery :
    (coreOf 2 0 (unitAt 0x11 frame6 14 14 0)).cur = some (unitAt 0x11 frame6 14 14 0) ∧
    (unitAt 0x11 frame6 14 14 0).endOff = some 54 ∧ (14 : Offset).toNat + 40 ≤ (54 : Offset).toNat ∧
    (0x0ABCDEF1 : BitVec 32).toNat = (((unitAt 0x11 frame6 14 14 0).frame.read 14).toNat * 2 ^ 24 +
      ((unitAt 0x11 frame6 14 14 0).frame.read 15).toNat * 2 ^ 16 + ((unitAt 0x11 frame6 14 14 0).frame.read 16).toNat * 2 ^ 8 +
      ((unitAt 0x11 frame6 14 14 0).frame.read 17).toNat) % 2 ^ 28 ∧
    (0 : BitVec 16).toNat = ((unitAt 0x11 frame6 14 14 0).frame.read 18).toNat * 256 +
      ((unitAt 0x11 frame6 14 14 0).frame.read 19).toNat := by decide

/-- With an answer ready and with none. -/
theorem witness_FibWritesAnyAnswer :
    (let u := { unitAt 0x0A frame4 14 14 0 with q := some default, lookupAnswers := [answerOk] }
     (coreOf 2 0 u).cur = some u ∧ u.q = some default ∧ u.lookupAnswers = answerOk :: []) ∧
    (let u := { unitAt 0x0A frame4 14 14 0 with q := some default }
     u.q = some default ∧ u.lookupAnswers = []) := by decide

/-- Result codes 0, 1, 3, 4 and 15. -/
theorem witness_FdispDispatchesOnResult :
    (let u := { unitAt 0x0B frame4 14 14 0 with r := some answerOk }
     (coreOf 2 0 u).cur = some u ∧ u.r = some answerOk ∧ answerOk.rc = 0) ∧
    (1 ≤ (1 : BitVec 4).toNat ∧ (3 : BitVec 4).toNat ≤ 3 ∧ 4 ≤ (4 : BitVec 4).toNat ∧ 4 ≤ (15 : BitVec 4).toNat) := by decide

theorem witness_ChecksumDelta : 0xFFFF < 2 ^ 16 ∧ (0 : BitVec 4).getLsbD 2 = false ∧ (4 : BitVec 4).getLsbD 2 = true := by decide

/-- `end` exactly past the checksum; TTL 1 and TTL 0. -/
theorem witness_Dec4DecrementsTtl :
    (coreOf 2 0 (unitAt 0x0C (frame4.take 26) 14 14 0)).cur = some (unitAt 0x0C (frame4.take 26) 14 14 0) ∧
    (unitAt 0x0C (frame4.take 26) 14 14 0).endOff = some 26 ∧ (14 : Offset).toNat + 12 ≤ (26 : Offset).toNat ∧
    1 = ((unitAt 0x0C (frame4.set 22 1) 14 14 0).frame.read 22).toNat ∧
    0 = ((unitAt 0x0C (frame4.set 22 0) 14 14 0).frame.read 22).toNat ∧
    0x8F9B = ((unitAt 0x0C frame4 14 14 0).frame.read 24).toNat * 256 + ((unitAt 0x0C frame4 14 14 0).frame.read 25).toNat := by decide

theorem witness_Dec6DecrementsHopLimit :
    (coreOf 2 0 (unitAt 0x14 (frame6.take 22) 14 14 0)).cur = some (unitAt 0x14 (frame6.take 22) 14 14 0) ∧
    (unitAt 0x14 (frame6.take 22) 14 14 0).endOff = some 22 ∧ (14 : Offset).toNat + 8 ≤ (22 : Offset).toNat ∧
    1 = ((unitAt 0x14 (frame6.set 21 1) 14 14 0).frame.read 21).toNat ∧
    0 = ((unitAt 0x14 (frame6.set 21 0) 14 14 0).frame.read 21).toNat := by decide

theorem witness_L2rwSubstitutesMacs :
    let u := { unitAt 0x0D (frame4.take 12) 0 0 0 with r := some answerOk }
    (coreOf 2 0 u).cur = some u ∧ u.r = some answerOk ∧ u.endOff = some 12 ∧ 12 ≤ (12 : Offset).toNat := by decide

/-- CFG[3] = 0, and CFG[3] = 1 with a hit, a miss and no answer ready. -/
theorem witness_RedirSelectsEgress :
    (let u := { unitAt 0x0E frame4 14 14 0 with r := some answerOk, devmapAnswers := [true] }
     (coreOf 2 8 u).cur = some u ∧ u.r = some answerOk ∧ u.devmapAnswers = true :: []) ∧
    ({ unitAt 0x0E frame4 14 14 0 with devmapAnswers := [false] } : UnitState).devmapAnswers = false :: [] ∧
    (unitAt 0x0E frame4 14 14 0).devmapAnswers = [] ∧ (0 : BitVec 4).getLsbD 3 = false ∧ (8 : BitVec 4).getLsbD 3 = true := by decide

/-- Actions 5, 4 with tgt written, and 3. -/
theorem witness_FinCountsAndResponds :
    (let u := { unitAt 0x3F frame4 14 14 0 with act := some 5 }
     (coreOf 1 0 u).cur = some u ∧ u.act = some 5 ∧ 5 ≤ (5 : BitVec 3).toNat) ∧
    (let u := { unitAt 0x3F frame4 14 14 0 with act := some 4, tgt := some 7 }
     (coreOf 1 0 u).cur = some u ∧ u.act = some 4 ∧ (4 : BitVec 3).toNat < 5 ∧ u.endOff = some 42 ∧ u.tgt = some 7 ∧
       u.ct.get? (4 : BitVec 3).toNat = some ⟨0, 0⟩) ∧
    (unitAt 0x3F frame4 14 14 0).ct.get? (3 : BitVec 3).toNat = some ⟨0, 0⟩ := by decide

theorem witness_IllEntersFault : illegalWord 0x5001#16 = true ∧
    (coreOf 1 0 (unitAt 0x01 frame4 0 0 0)).cur = some (unitAt 0x01 frame4 0 0 0) := by decide

/-- A unit with every register unwritten, and for the clauses with further premises each of those. -/
theorem witness_UnwrittenRegisterFaults :
    (let u := { UnitState.powerOn with st := .run }
     (coreOf 1 0 u).cur = some u ∧ u.pos = none ∧ u.endOff = none ∧ u.proto = none ∧ u.l3 = none ∧ u.q = none ∧ u.r = none ∧
       u.act = none) ∧
    (let u := { UnitState.powerOn with st := .run, proto := some 0x88A8, act := some 4 }
     (coreOf 1 0 u).cur = some u ∧ u.proto = some 0x88A8 ∧ u.pos = none ∧ u.act = some 4 ∧ (4 : BitVec 3).toNat < 5 ∧
       u.endOff = none ∧ u.tgt = none) ∧
    (let u := { unitAt 0x02 frame4 38 0 0x8100 with vdepth := none }
     (coreOf 1 0 u).cur = some u ∧ u.proto = some 0x8100 ∧ u.pos = some 38 ∧ u.endOff = some 42 ∧
       (38 : Offset).toNat + 4 ≤ (42 : Offset).toNat ∧ u.vdepth = none) ∧
    ({ unitAt 0x02 frame4 38 0 0x88A8 with vdepth := none } : UnitState).proto = some 0x88A8 ∧
    ({ UnitState.powerOn with proto := some 0x0800 } : UnitState).proto = some 0x0800 ∧
    ({ UnitState.powerOn with proto := some 0x86DD } : UnitState).proto = some 0x86DD := by decide

/-- One byte less than each micro-operation reads, with l3 = pos = 14. -/
theorem witness_OutOfBoundsAccessFaults :
    (let u := { unitAt 0x01 frame4 14 14 0 with endOff := some 20, r := some answerOk }
     (coreOf 1 0 u).cur = some u ∧ u.l3 = some 14 ∧ u.pos = some 14 ∧ u.endOff = some 20 ∧ u.r = some answerOk) ∧
    ((30 : Offset).toNat < (14 : Offset).toNat + (if (0 : BitVec 4).getLsbD 0 then 20 else 17) ∧
     (33 : Offset).toNat < (14 : Offset).toNat + (if (1 : BitVec 4).getLsbD 0 then 20 else 17) ∧
     (21 : Offset).toNat < (14 : Offset).toNat + 8 ∧ (23 : Offset).toNat < (14 : Offset).toNat + 10 ∧
     (20 : Offset).toNat < (14 : Offset).toNat + 7 ∧ (17 : Offset).toNat < (14 : Offset).toNat + 4 ∧
     (22 : Offset).toNat < (14 : Offset).toNat + 9 ∧ (33 : Offset).toNat < (14 : Offset).toNat + 20 ∧
     (53 : Offset).toNat < (14 : Offset).toNat + 40 ∧ (25 : Offset).toNat < (14 : Offset).toNat + 12 ∧
     (11 : Offset).toNat < 12) := by decide

theorem witness_FaultEntryChangesOnlySt :
    (coreOf 1 0 (unitAt 0x01 frame4 0 0 0)).cur = some (unitAt 0x01 frame4 0 0 0) ∧ (unitAt 0x01 frame4 0 0 0).st = .run ∧
    (unitAfter (exec .fib (coreOf 1 0 (unitAt 0x01 frame4 0 0 0)))).map (fun u => u.st) = some (.fault .unwritten) := by decide

theorem witness_EveryMicroOperationCompletes : State.reset.cur = some UnitState.powerOn := by decide

/-- Two cores that differ in the other unit, in PROG and in a ROM. -/
theorem witness_EffectDependsOnOwnUnitOnly :
    let u := unitAt 0x01 frame4 0 0 0
    let s := coreOf 1 0 u
    let s' : State := { coreOf 2 0 u with units := [u, u], rom0 := [] }
    s.cur = some u ∧ s'.cur = some u ∧ s.turn = s'.turn ∧ s.cfg = s'.cfg ∧ s ≠ s' := by decide

theorem witness_RegistersWrittenOnlyByNamedMicroOps :
    ∃ t, exec .eth (coreOf 1 0 (unitAt 0x01 frame4 0 0 0)) = .next t ∧ t.cur.isSome = true :=
  ⟨_, rfl, rfl⟩

theorem witness_NonStoringMicroOpsKeepFrame :
    Instr.redir ≠ .dec4 ∧ Instr.redir ≠ .dec6 ∧ Instr.redir ≠ .l2rw ∧
    ∃ t, exec .redir (coreOf 2 0 { unitAt 0x0E frame4 14 14 0 with r := some answerOk }) = .next t ∧ t.cur.isSome = true :=
  ⟨by decide, by decide, by decide, _, rfl, rfl⟩

theorem witness_StoringMicroOpsWriteSet :
    (∃ t, exec .dec4 (coreOf 2 0 (unitAt 0x0C frame4 14 14 0)) = .next t ∧ t.cur.isSome = true) ∧
    (∃ t, exec .dec6 (coreOf 2 0 (unitAt 0x14 frame6 14 14 0)) = .next t ∧ t.cur.isSome = true) ∧
    (∃ t, exec .l2rw (coreOf 2 0 { unitAt 0x0D frame4 14 14 0 with r := some answerOk }) = .next t ∧ t.cur.isSome = true) ∧
    (unitAt 0x0C frame4 14 14 0).l3 = some 14 ∧ ((12 : Nat) ≠ (14 : Offset).toNat + 8 ∧ 12 ≤ 12) :=
  ⟨⟨_, rfl, rfl⟩, ⟨_, rfl, rfl⟩, ⟨_, rfl, rfl⟩, rfl, by decide⟩

theorem witness_ProgramCounterUpdate :
    (coreOf 1 0 (unitAt 0x3F frame4 14 14 0)).cur = some (unitAt 0x3F frame4 14 14 0) ∧ (unitAt 0x3F frame4 14 14 0).st = .run ∧
    ∃ t, exec .cinit (coreOf 1 0 (unitAt 0x3F frame4 14 14 0)) = .next t ∧ t.cur.isSome = true :=
  ⟨rfl, rfl, _, rfl, rfl⟩

/-- A unit at FIN whose account is of one PASS of P1's frame. -/
def counted : UnitState :=
  { unitAt 0x3F frame4 14 14 0 with
    responses := [⟨2, none, frame4⟩], ct := { Slice.zero with pass := ⟨1, 42⟩ } }

theorem witness_StepKeepsInvariant : Safety.Inv (coreOf 1 0 counted) ∧ ∃ t, step (coreOf 1 0 counted) = .next t := by
  refine ⟨⟨by decide, ?_⟩, exists_next (by decide)⟩
  intro u hu
  have hu' : u = counted ∨ u = UnitState.powerOn := by simpa [coreOf] using hu
  rcases hu' with rfl | rfl
  · refine ⟨⟨by decide, ?_, ?_⟩, fun _ => by decide, fun _ => ?_⟩
    · intro e he
      exact (Option.some.inj (show some (42 : Offset) = some e from he)).symm
    · intro a ha
      exact .inr (.inr (.inl (Option.some.inj (show some (2 : BitVec 3) = some a from ha)).symm))
    · exact ⟨⟨by decide, by decide⟩, ⟨by decide, by decide⟩, ⟨by decide, by decide⟩, ⟨by decide, by decide⟩, by decide⟩
  · exact ⟨⟨by decide, nofun, nofun⟩, nofun, fun _ =>
      ⟨⟨by decide, by decide⟩, ⟨by decide, by decide⟩, ⟨by decide, by decide⟩, ⟨by decide, by decide⟩, by decide⟩⟩

/-- The forwarder after CHK 20 on P1's frame. -/
theorem witness_RomsNeverFault : Safety.RomInv (coreOf 2 0 (unitAt 0x08 frame4 14 14 0x0800)) := by
  refine ⟨rfl, rfl, by decide, fun u hu => ?_⟩
  have hu' : u = unitAt 0x08 frame4 14 14 0x0800 ∨ u = UnitState.powerOn := by simpa [coreOf] using hu
  rcases hu' with rfl | rfl
  · refine ⟨nofun, fun _ => .inr ⟨rfl, ?_⟩⟩
    exact ⟨⟨rfl, rfl, rfl, rfl, rfl, rfl, rfl⟩, by decide, 14, rfl, by decide⟩
  · exact ⟨nofun, nofun⟩

/-- LOAD(1), P1's request and its first micro-operation, from power-on. -/
theorem witness_NoUnitFaultsFromPowerOn :
    ∃ t : State, Host.Core.run Sys2Proof.core 3 { State.reset with agenda := [.load 1, .request request4] } = .next t ∧
      t.units.length = 2 := by
  obtain ⟨t, h⟩ := exists_next (o := Host.Core.run Sys2Proof.core 3
    { State.reset with agenda := [.load 1, .request request4] }) (by decide)
  refine ⟨t, h, ?_⟩
  have h' : (match Host.Core.run Sys2Proof.core 3 { State.reset with agenda := [.load 1, .request request4] } with
    | .next t => (t : State).units.length == 2
    | _ => false) = true := by decide
  rw [h] at h'
  simpa using h'

/-- P1's frame, which the drop filter drops, and a 10-byte frame, which it passes. -/
theorem witness_DropFilterClosedForm :
    (coreOf 1 0 UnitState.powerOn).agenda = [] ∧ (coreOf 1 0 UnitState.powerOn).prog = 1 ∧
    (coreOf 1 0 UnitState.powerOn).rom0 = romDropFilter ∧
    (∃ s1, (coreOf 1 0 UnitState.powerOn).submit request4 = .next s1) ∧ Safety.dropFilterDrops 0 frame4 ∧
    (∃ s1, (coreOf 1 0 UnitState.powerOn).submit ⟨0, frame4.take 10, 10, 3⟩ = .next s1) ∧
    ¬ Safety.dropFilterDrops 0 (frame4.take 10) := by
  refine ⟨rfl, rfl, rfl, exists_next (by decide), ?_, exists_next (by decide), ?_⟩
  · have h : Safety.walk frame4 = some (0x0800, 14) := by decide
    unfold Safety.dropFilterDrops
    rw [h]
    exact ⟨by decide, .inr (.inr ⟨by decide, by decide, by decide, .inr (by decide)⟩)⟩
  · have h : Safety.walk (frame4.take 10) = none := by decide
    unfold Safety.dropFilterDrops
    rw [h]
    exact id

/-- P1's frame reaches the lookup, with TTL 1 it does not, and each class of answer stands ready in some core. -/
theorem witness_ForwarderClosedForm :
    (coreOf 2 8 { UnitState.powerOn with lookupAnswers := [answerOk], devmapAnswers := [false] }).agenda = [] ∧
    (∃ s1, (coreOf 2 8 { UnitState.powerOn with lookupAnswers := [answerOk], devmapAnswers := [false] }).submit request4 = .next s1) ∧
    Safety.forwarderLooksUp frame4 = some (.ipv4, 14) ∧ Safety.forwarderLooksUp frame6 = some (.ipv6, 14) ∧
    Safety.forwarderLooksUp (frame4.set 22 1) = none ∧
    answerOk.rc = 0 ∧ (⟨3, 0, 0, 0⟩ : LookupResult).rc.toNat ≤ 3 ∧ ¬ (⟨4, 0, 0, 0⟩ : LookupResult).rc.toNat ≤ 3 :=
  ⟨rfl, exists_next (by decide), by decide, by decide, by decide, by decide, by decide, by decide⟩

theorem witness_ShortFramesPass : (13 : Offset).toNat < 14 ∧
    ∃ s1, (coreOf 2 0 UnitState.powerOn).submit ⟨0, frame4.take 13, 13, 3⟩ = .next s1 :=
  ⟨by decide, exists_next (by decide)⟩

/-- P1's header: TTL 5, its ten words sum to 0xFFFF. -/
theorem witness_ChecksumStaysCorrect :
    (coreOf 2 0 (unitAt 0x0C frame4 14 14 0)).cur = some (unitAt 0x0C frame4 14 14 0) ∧
    (unitAt 0x0C frame4 14 14 0).l3 = some 14 ∧ (unitAt 0x0C frame4 14 14 0).endOff = some 42 ∧
    (14 : Offset).toNat + 20 ≤ (42 : Offset).toNat ∧ 2 ≤ ((unitAt 0x0C frame4 14 14 0).frame.read 22).toNat ∧
    Safety.onesSum (Safety.headerSum (unitAt 0x0C frame4 14 14 0).frame 14) = 0xFFFF ∧
    ∃ t, exec .dec4 (coreOf 2 0 (unitAt 0x0C frame4 14 14 0)) = .next t ∧ t.cur.isSome = true :=
  ⟨by decide, by decide, by decide, by decide, by decide, by decide, _, rfl, rfl⟩

end Sys2Proof.Tests
end

section
/-! PROOFS. The statements of 10_state.md: what a unit in FAULT does, what no step writes, what a read of an unwritten register
does, and what one micro-operation reads and writes. -/

namespace Sys2Proof.Machine

/-! ### A unit in FAULT -/

/-- Settles O8. -/
theorem faultedUnitHasNoStep : Obligations.FaultedUnitHasNoStep := by
  unfold Obligations.FaultedUnitHasNoStep
  constructor
  · intro s u r hag hu hst
    rw [step_nil hag]
    exact unitStep_fault hu hst
  · intro s v rest u r hag hu hst
    rw [step_cons hag]
    exact unitStep_fault (s := { s with agenda := rest, turn := v }) hu hst

/-! ### What a step leaves of the global state -/

/-- A unit's step leaves the core as it is, or puts that unit into another state. -/
theorem unitStep_next_put {s t : State} (h : unitStep s = .next t) : t = s ∨ ∃ y, t = s.put y := by
  obtain ⟨u, -, ⟨-, rfl⟩ | ⟨w, -, -, hexec⟩⟩ := unitStep_next h
  · exact .inl rfl
  · obtain ⟨u, -, ⟨y, -, rfl⟩ | ⟨r, -, rfl⟩⟩ := exec_next hexec
    · exact .inr ⟨y, rfl⟩
    · exact .inr ⟨u.raise r, rfl⟩

/-- What the build fixes: CFG, LEN_MAX, both ROMs and the number of units (R8, R33). -/
def SameBuild (s t : State) : Prop :=
  t.cfg = s.cfg ∧ t.lenMax = s.lenMax ∧ t.rom0 = s.rom0 ∧ t.rom1 = s.rom1 ∧ t.units.length = s.units.length

theorem unitStep_keeps_build {s t : State} (h : unitStep s = .next t) : SameBuild s t ∧ t.prog = s.prog := by
  obtain rfl | ⟨y, rfl⟩ := unitStep_next_put h <;> simp [SameBuild]

/-- Of all moves LOAD(p) alone writes PROG, and it writes p; none writes what the build fixes. -/
theorem perform_keeps_build {m : Move} {s t : State} (h : perform m s = .next t) :
    SameBuild s t ∧ (t.prog = s.prog ∨ ∃ p, m = .load p ∧ t.prog = p) := by
  cases m with
  | unitStep u =>
    obtain ⟨hbuild, hprog⟩ := unitStep_keeps_build h
    exact ⟨hbuild, .inl hprog⟩
  | request r =>
    obtain ⟨u, -, -, -, -, -, rfl⟩ := State.submit_next h
    simp [SameBuild]
  | load p =>
    obtain ⟨-, -, rfl⟩ := State.load_next h
    simp [SameBuild]
  | monitor u a f =>
    obtain ⟨x, r, -, -, rfl⟩ := State.monitorRead_next h
    simp [SameBuild]

/-- Settles O12, by the move the step makes. -/
theorem onlyLoadWritesProg : Obligations.OnlyLoadWritesProg := by
  unfold Obligations.OnlyLoadWritesProg
  intro s t h
  suffices hs : SameBuild s t ∧ (t.prog = s.prog ∨ ∃ p rest, s.agenda = .load p :: rest ∧ t.prog = p) by
    obtain ⟨⟨hcfg, hlen, hrom0, hrom1, hunits⟩, hprog⟩ := hs
    exact ⟨hcfg, hlen, hrom0, hrom1, hunits, hprog⟩
  cases hag : s.agenda with
  | nil =>
    rw [step_nil hag] at h
    obtain ⟨hbuild, hprog⟩ := unitStep_keeps_build h
    exact ⟨hbuild, .inl hprog⟩
  | cons m rest =>
    rw [step_cons hag] at h
    obtain ⟨hbuild, hprog | ⟨p, rfl, hp⟩⟩ := perform_keeps_build h
    · exact ⟨hbuild, .inl hprog⟩
    · exact ⟨hbuild, .inr ⟨p, rest, rfl, hp⟩⟩

/-! ### What one micro-operation reads and leaves alone -/

/-- Settles O47: the micro-operation completes with a put, and a put is one of its own unit only. -/
theorem everyMicroOperationCompletes : Obligations.EveryMicroOperationCompletes := by
  unfold Obligations.EveryMicroOperationCompletes
  intro i s u hu
  obtain ⟨y, hy⟩ := exec_completes i hu
  exact ⟨y, hy, State.cur_put hu y, State.put_other s y, rfl, rfl, rfl, rfl, rfl, rfl, rfl, rfl⟩

/-- Settles O48: exec runs the unit's own meaning, a function of CFG, the unit's number and the unit. -/
theorem effectDependsOnOwnUnitOnly : Obligations.EffectDependsOnOwnUnitOnly := by
  unfold Obligations.EffectDependsOnOwnUnitOnly
  intro i s s' u hu hu' hturn hcfg
  rw [exec_eq_onUnit i s, exec_eq_onUnit i s', ← hturn, ← hcfg]
  cases h : unitMeaning i s.cfg s.turn u with
  | ok y => exact ⟨y, State.onUnit_ok hu h, State.onUnit_ok hu' h⟩
  | error r => exact ⟨u.raise r, State.onUnit_error hu h, State.onUnit_error hu' h⟩

/-! ### Which registers a micro-operation writes -/

/-- Settles O49: a fault writes no register, and of each effect the meaning's inversion lemma says what it writes. -/
theorem registersWrittenOnlyByNamedMicroOps : Obligations.RegistersWrittenOnlyByNamedMicroOps := by
  unfold Obligations.RegistersWrittenOnlyByNamedMicroOps
  intro i s t u y hu hexec hy
  obtain ⟨v, hv, hnext⟩ := exec_next hexec
  obtain rfl : u = v := Option.some.inj (hu.symm.trans hv)
  obtain ⟨y', h, rfl⟩ | ⟨r, -, rfl⟩ := hnext
  case inr =>
    obtain rfl : u.raise r = y := Option.some.inj ((State.cur_put hu _).symm.trans hy)
    simp
  obtain rfl : y' = y := Option.some.inj ((State.cur_put hu _).symm.trans hy)
  cases i with
  | ill => exact (ill_ok (u := u) h).elim
  | cinit => rw [cinit_ok h]; simp
  | chk n => obtain ⟨p, e, -, -, ⟨-, rfl⟩ | ⟨-, rfl⟩⟩ := chk_ok h <;> simp [finPc]
  | adv n => obtain ⟨p, e, -, -, ⟨-, rfl⟩ | ⟨-, rfl⟩⟩ := adv_ok h <;> simp [finPc]
  | eth => obtain ⟨p, e, -, -, ⟨-, rfl⟩ | ⟨-, rfl⟩⟩ := eth_ok h <;> simp [finPc]
  | vlan =>
    obtain ⟨pr, -, ⟨-, rfl⟩ | ⟨-, p, e, -, -, ⟨-, rfl⟩ | ⟨-, d, -, rfl⟩⟩⟩ := vlan_ok h <;> simp [finPc]
  | jp4 a => obtain ⟨pr, -, ⟨-, rfl⟩ | ⟨-, p, -, rfl⟩⟩ := branchOnProto_ok h <;> simp
  | jp6 a => obtain ⟨pr, -, ⟨-, rfl⟩ | ⟨-, p, -, rfl⟩⟩ := branchOnProto_ok h <;> simp
  | unsup => rw [unsup_ok h]; simp [finPc]
  | c4dst => obtain ⟨l, e, -, -, -, ⟨-, rfl⟩ | ⟨-, rfl⟩⟩ := c4dst_ok h <;> simp [finPc]
  | c4frag => obtain ⟨l, e, -, -, -, ⟨-, rfl⟩ | ⟨-, rfl⟩⟩ := c4frag_ok h <;> simp [finPc]
  | c4l4 =>
    obtain ⟨l, e, -, -, -, ⟨-, rfl⟩ | ⟨-, -, rfl⟩ | ⟨-, -, -, rfl⟩ | ⟨-, -, -, rfl⟩⟩ := c4l4_ok h <;> simp [finPc]
  | c6l4 => obtain ⟨l, e, -, -, -, ⟨-, rfl⟩ | ⟨-, rfl⟩⟩ := c6l4_ok h <;> simp [finPc]
  | cudp => obtain ⟨p, e, -, -, -, ⟨-, rfl⟩ | ⟨-, rfl⟩⟩ := cudp_ok h <;> simp [finPc]
  | ttl4 => obtain ⟨l, e, -, -, -, ⟨-, rfl⟩ | ⟨-, rfl⟩⟩ := hopGuardAt_ok h <;> simp [finPc]
  | q4 => obtain ⟨l, e, -, -, -, rfl⟩ := q4_ok h; simp
  | ttl6 => obtain ⟨l, e, -, -, -, ⟨-, rfl⟩ | ⟨-, rfl⟩⟩ := hopGuardAt_ok h <;> simp [finPc]
  | q6 => obtain ⟨l, e, -, -, -, rfl⟩ := q6_ok h; simp
  | fib => obtain ⟨q, -, rfl⟩ := fib_ok h; simp
  | fdisp => obtain ⟨r, -, ⟨-, rfl⟩ | ⟨-, rfl⟩ | ⟨-, rfl⟩⟩ := fdisp_ok h <;> simp [finPc]
  | dec4 => obtain ⟨l, e, -, -, -, rfl⟩ := dec4_ok h; simp
  | dec6 => obtain ⟨l, e, -, -, -, rfl⟩ := dec6_ok h; simp
  | l2rw => obtain ⟨r, e, -, -, -, rfl⟩ := l2rw_ok h; simp
  | redir => obtain ⟨r, -, ⟨-, rfl⟩ | ⟨-, -, rfl⟩ | ⟨-, -, rfl⟩⟩ := redir_ok h <;> simp [finPc]
  | fin => obtain ⟨a, -, ⟨-, rfl⟩ | ⟨-, e, tgt, -, -, rfl⟩⟩ := fin_ok h <;> simp

/-! ### Reads of an unwritten register -/

/-- A micro-operation that begins with a register read faults if the register is unwritten, and if whatever follows the read
does. -/
theorem readReg_bind_unwritten {α β : Type} {r : Option α} {f : α → Except FaultReason β}
    (h : r = none ∨ ∀ v, f v = .error .unwritten) : (readReg r >>= f) = .error .unwritten := by
  cases r with
  | none => rfl
  | some v => exact (h.resolve_left nofun) v

@[simp] theorem UnitState.check_unwritten {u : UnitState} (he : u.endOff = none) (o n : Nat) :
    u.check o n = .error .unwritten := by
  simp [UnitState.check, he]

@[simp] theorem UnitState.memBytes_unwritten {u : UnitState} (he : u.endOff = none) (o n : Nat) :
    u.memBytes o n = .error .unwritten := by
  simp [UnitState.memBytes, he]

@[simp] theorem UnitState.memRead_unwritten {u : UnitState} (he : u.endOff = none) (o n : Nat) :
    u.memRead o n = .error .unwritten := by
  simp [UnitState.memRead, he]

@[simp] theorem UnitState.memWriteBytes_unwritten {u : UnitState} (he : u.endOff = none) (o : Nat) (bs : List Byte) :
    u.memWriteBytes o bs = .error .unwritten := by
  simp [UnitState.memWriteBytes, he]

/-- A meaning that raises UNWRITTEN puts its unit into FAULT(UNWRITTEN) and changes nothing else (R32, R130). -/
theorem exec_unwritten {i : Instr} {s : State} {u : UnitState} (hu : s.cur = some u)
    (h : unitMeaning i s.cfg s.turn u = .error .unwritten) :
    exec i s = .next (s.put { u with st := .fault .unwritten }) := by
  rw [exec_eq_onUnit]
  exact State.onUnit_error hu h

section
variable {u : UnitState}

/-- The micro-operations that begin at the cursor read pos, and then `end`. -/
theorem cursor_unwritten {i : Instr} {cfg : BitVec 4} {unit : Nat} (h : u.pos = none ∨ u.endOff = none)
    (hi : (∃ n, i = .chk n) ∨ (∃ n, i = .adv n) ∨ i = .eth ∨ i = .cudp) : unitMeaning i cfg unit u = .error .unwritten := by
  obtain ⟨n, rfl⟩ | ⟨n, rfl⟩ | rfl | rfl := hi <;>
    exact readReg_bind_unwritten (h.imp_right fun he p => by simp [he])

/-- The micro-operations that begin at the network header read l3, and then `end`. -/
theorem header_unwritten {i : Instr} {cfg : BitVec 4} {unit : Nat} (h : u.l3 = none ∨ u.endOff = none)
    (hi : i ∈ [.c4dst, .c4frag, .c4l4, .c6l4, .ttl4, .ttl6, .q4, .q6, .dec4, .dec6]) :
    unitMeaning i cfg unit u = .error .unwritten := by
  simp only [List.mem_cons, List.not_mem_nil, or_false] at hi
  obtain rfl | rfl | rfl | rfl | rfl | rfl | rfl | rfl | rfl | rfl := hi <;>
    exact readReg_bind_unwritten (h.imp_right fun he l => by simp [he])

/-- The protocol ids the statement names as tags are those VLAN unwraps (R86). -/
theorem exists_tag (h : u.proto = some 0x8100 ∨ u.proto = some 0x88A8) :
    ∃ pr, u.proto = some pr ∧ isVlanTpid pr = true := by
  obtain h | h := h
  · exact ⟨_, h, by decide⟩
  · exact ⟨_, h, by decide⟩

/-- At a tag VLAN reads pos, and then `end`. -/
theorem vlan_cursor_unwritten {pr : BitVec 16} (unit : Nat) (hpr : u.proto = some pr) (htag : isVlanTpid pr = true)
    (h : u.pos = none ∨ u.endOff = none) : vlan unit u = .error .unwritten := by
  simp only [vlan, hpr, readReg_some, bind_of_ok, htag, if_true]
  exact readReg_bind_unwritten (h.imp_right fun he p => by simp [he])

/-- Where the tag's 4 bytes are there VLAN reads vdepth. -/
theorem vlan_vdepth_unwritten {pr : BitVec 16} {p e : Offset} (unit : Nat) (hpr : u.proto = some pr)
    (htag : isVlanTpid pr = true) (hp : u.pos = some p) (he : u.endOff = some e) (hle : p.toNat + 4 ≤ e.toNat)
    (hd : u.vdepth = none) : vlan unit u = .error .unwritten := by
  have hread := UnitState.memRead_ok he (o := p.toNat + 2) (n := 2) (by omega)
  simp [vlan, hpr, htag, hp, UnitState.check_eq he, vlanTagBytes, hle, hread, hd]

/-- JP4 and JP6 read pos when proto selects. -/
theorem branchOnProto_pos_unwritten {wanted : BitVec 16} (t : BitVec 6) (hpr : u.proto = some wanted) (hp : u.pos = none) :
    branchOnProto wanted t u = .error .unwritten := by
  simp [branchOnProto, hpr, hp]

/-- L2RW reads R, and then `end`. -/
theorem l2rw_unwritten (h : u.r = none ∨ u.endOff = none) : l2rw u = .error .unwritten :=
  readReg_bind_unwritten (h.imp_right fun he r => by simp [he])

/-- FIN reads `end` when the action is known. -/
theorem fin_end_unwritten {a : BitVec 3} (ha : u.act = some a) (hknown : a.toNat < 5) (he : u.endOff = none) :
    fin u = .error .unwritten := by
  simp [fin, ha, actionMax, Nat.not_le.mpr hknown, he]

/-- FIN reads tgt when the action is REDIRECT; an unwritten `end`, which it reads before, has the same effect. -/
theorem fin_tgt_unwritten (ha : u.act = some actRedirect) (ht : u.tgt = none) : fin u = .error .unwritten := by
  cases he : u.endOff with
  | none => exact fin_end_unwritten ha (by decide) he
  | some e => simp [fin, ha, actionMax, actRedirect, he, UnitState.targetOut, ht]

end

/-- Settles O44, by the order in which each micro-operation reads its registers. -/
theorem unwrittenRegisterFaults : Obligations.UnwrittenRegisterFaults := by
  unfold Obligations.UnwrittenRegisterFaults
  intro s u hu fault
  have faults : ∀ i, unitMeaning i s.cfg s.turn u = .error .unwritten → exec i s = fault := fun i h => exec_unwritten hu h
  refine ⟨fun h => ?cursor, fun h => ?proto, fun htag h => ?vlanCursor, fun p e htag hp he hle hd => ?vlanVdepth,
    fun t hp => ?branchPos, fun h => ?header, fun h => ?q, fun h => ?r, fun h => ?l2rwEnd, fun h => ?act,
    fun a ha hknown he => ?finEnd, fun ha ht => ?finTgt⟩
  case cursor =>
    refine ⟨fun n => ⟨?_, ?_⟩, ?_, ?_⟩ <;> exact faults _ (cursor_unwritten h (by simp))
  case proto =>
    refine ⟨?_, fun t => ⟨?_, ?_⟩⟩ <;> exact faults _ (readReg_bind_unwritten (.inl h))
  case vlanCursor =>
    obtain ⟨pr, hpr, htag⟩ := exists_tag htag
    exact faults _ (vlan_cursor_unwritten _ hpr htag h)
  case vlanVdepth =>
    obtain ⟨pr, hpr, htag⟩ := exists_tag htag
    exact faults _ (vlan_vdepth_unwritten _ hpr htag hp he hle hd)
  case branchPos =>
    exact ⟨fun hpr => faults _ (branchOnProto_pos_unwritten t hpr hp),
      fun hpr => faults _ (branchOnProto_pos_unwritten t hpr hp)⟩
  case header =>
    refine ⟨?_, ?_, ?_, ?_, ?_, ?_, ?_, ?_, ?_, ?_⟩ <;> exact faults _ (header_unwritten h (by simp))
  case q => exact faults _ (readReg_bind_unwritten (.inl h))
  case r =>
    refine ⟨?_, ?_, ?_⟩ <;> exact faults _ (readReg_bind_unwritten (.inl h))
  case l2rwEnd => exact faults _ (l2rw_unwritten (.inr h))
  case act => exact faults _ (readReg_bind_unwritten (.inl h))
  case finEnd => exact faults _ (fin_end_unwritten ha hknown he)
  case finTgt => exact faults _ (fin_tgt_unwritten ha ht)

end Sys2Proof.Machine
end

section
/-! PROOFS. The statements of 20_memory.md: what the frame primitives read, write and refuse, which bytes a micro-operation may
write, and what a monitor read answers. -/

namespace Sys2Proof.Machine

/-! ### A frame read -/

theorem Memory.bytes_eq_map (m : Memory) (o n : Nat) : m.bytes o n = (List.range n).map fun k => m.read (o + k) := by
  induction n generalizing o with
  | zero => rfl
  | succ n ih => simp [Memory.bytes, ih, List.range_succ_eq_map, Nat.add_assoc, Nat.add_comm 1]

/-- The most significant byte comes first (R12, R43). -/
theorem beValue_bytes_eq_sum (m : Memory) (o n : Nat) :
    beValue (m.bytes o n) = ((List.range n).map fun k => (m.read (o + k)).toNat * 256 ^ (n - 1 - k)).sum := by
  induction n generalizing o with
  | zero => rfl
  | succ n ih =>
    simp [Memory.bytes, beValue, ih, List.range_succ_eq_map, Function.comp_def, Nat.sub_sub, Nat.add_assoc, Nat.add_comm 1]

/-- Settles O16. -/
theorem frameReadIsBigEndian : Obligations.FrameReadIsBigEndian := by
  unfold Obligations.FrameReadIsBigEndian
  intro u e o n he _ _
  refine ⟨fun hin => ⟨?_, ?_⟩, fun hout => ⟨UnitState.memRead_oob he hout, UnitState.memBytes_oob he hout⟩⟩
  · rw [UnitState.memRead_ok he hin, beValue_bytes_eq_sum]
  · rw [UnitState.memBytes_ok he hin, Memory.bytes_eq_map]

/-! ### A frame write -/

theorem Memory.read_writeBytes_inside (m : Memory) (o : Nat) (bs : List Byte) {k : Nat} (h : k < bs.length) :
    (m.writeBytes o bs).read (o + k) = bs.getD k 0 := by
  rw [Memory.read_writeBytes, if_pos (by omega), Nat.add_sub_cancel_left]

/-- A byte string reads back as it was written. -/
@[simp] theorem Memory.bytes_writeBytes_same (m : Memory) (o : Nat) (bs : List Byte) :
    (m.writeBytes o bs).bytes o bs.length = bs := by
  refine List.ext_getElem (Memory.length_bytes ..) fun k _ hk => ?_
  simp [Memory.bytes_eq_map, Memory.read_writeBytes_inside _ _ _ hk, hk]

theorem UnitState.memWriteBytes_oob {u : UnitState} {e : Offset} (he : u.endOff = some e) {o : Nat} {bs : List Byte}
    (h : e.toNat < o + bs.length) : u.memWriteBytes o bs = .error .oobWrite := by
  simp [UnitState.memWriteBytes, he, h]

theorem UnitState.memWrite_oob {u : UnitState} {e : Offset} (he : u.endOff = some e) {o n : Nat} (v : Nat)
    (h : e.toNat < o + n) : u.memWrite o n v = .error .oobWrite :=
  UnitState.memWriteBytes_oob he (by simpa using h)

/-- A value of n bytes reads back as it was written. -/
theorem UnitState.memRead_of_written {u : UnitState} {e : Offset} (he : u.endOff = some e) {o n v : Nat}
    (hin : o + n ≤ e.toNat) (hv : v < 256 ^ n) :
    ({ u with frame := u.frame.writeBytes o (beBytes n v) } : UnitState).memRead o n = .ok v := by
  have hbytes : (u.frame.writeBytes o (beBytes n v)).bytes o n = beBytes n v := by
    simpa using Memory.bytes_writeBytes_same u.frame o (beBytes n v)
  rw [UnitState.memRead_ok (u := { u with frame := u.frame.writeBytes o (beBytes n v) }) he hin, hbytes,
    beValue_beBytes n v hv]

/-- Settles O17: MemWrite(o, n, v) is MemWriteBytes of the n-byte encoding of v. -/
theorem frameWriteReadsBack : Obligations.FrameWriteReadsBack := by
  unfold Obligations.FrameWriteReadsBack
  intro u e o he
  refine ⟨fun n v _ _ hv => ⟨fun hin => ?value, UnitState.memWrite_oob he v⟩,
    fun bs => ⟨fun hin => ?string, UnitState.memWriteBytes_oob he⟩⟩
  case value =>
    refine ⟨_, UnitState.memWrite_ok he v hin, fun k hk => ?_, fun b hb => ?_, UnitState.memRead_of_written he hin hv⟩
    · rw [Memory.read_writeBytes_inside _ _ _ (by simpa using hk), getD_beBytes n v k hk, BitVec.toNat_ofNat]
    · exact Memory.read_writeBytes_outside _ _ _ _ (by simpa using hb)
  case string =>
    exact ⟨_, UnitState.memWriteBytes_ok he hin, fun k => Memory.read_writeBytes_inside _ _ _,
      fun b => Memory.read_writeBytes_outside _ _ _ _⟩

/-! ### An access past `end` -/

/-- A meaning that raises a fault puts its unit into FAULT with that reason and changes nothing else (R130). -/
theorem exec_raises {i : Instr} {s : State} {u : UnitState} {r : FaultReason} (hu : s.cur = some u)
    (h : unitMeaning i s.cfg s.turn u = .error r) : exec i s = .next (s.put { u with st := .fault r }) := by
  rw [exec_eq_onUnit]
  exact State.onUnit_error hu h

section
variable {u : UnitState} {l p e : Offset} {o n : Nat}

/-- A sequence that begins with MemBytes raises OOB_READ if, where the bytes are there, what follows does. -/
theorem memBytes_bind_oob {β : Type} {f : List Byte → Except FaultReason β} (he : u.endOff = some e)
    (h : ∀ bs, o + n ≤ e.toNat → f bs = .error .oobRead) : (u.memBytes o n >>= f) = .error .oobRead := by
  by_cases hin : o + n ≤ e.toNat
  · rw [UnitState.memBytes_ok he hin]; exact h _ hin
  · rw [UnitState.memBytes_oob he (Nat.lt_of_not_le hin)]; rfl

/-- A sequence that begins with MemRead raises OOB_READ if, where the bytes are there, what follows does. -/
theorem memRead_bind_oob {β : Type} {f : Nat → Except FaultReason β} (he : u.endOff = some e)
    (h : ∀ v, o + n ≤ e.toNat → f v = .error .oobRead) : (u.memRead o n >>= f) = .error .oobRead := by
  by_cases hin : o + n ≤ e.toNat
  · rw [UnitState.memRead_ok he hin]; exact h _ hin
  · rw [UnitState.memRead_oob he (Nat.lt_of_not_le hin)]; rfl

/-- A sequence that begins with MemWriteBytes raises OOB_WRITE if, where the string fits, what follows does. -/
theorem memWriteBytes_bind_oob {β : Type} {bs : List Byte} {f : UnitState → Except FaultReason β} (he : u.endOff = some e)
    (h : o + bs.length ≤ e.toNat → f { u with frame := u.frame.writeBytes o bs } = .error .oobWrite) :
    (u.memWriteBytes o bs >>= f) = .error .oobWrite := by
  by_cases hin : o + bs.length ≤ e.toNat
  · rw [UnitState.memWriteBytes_ok he hin]; exact h hin
  · rw [UnitState.memWriteBytes_oob he (Nat.lt_of_not_le hin)]; rfl

/-- A micro-operation whose first read is of the n bytes at l3 + k. -/
theorem header_read_oob {k : Nat} {f : Offset → Nat → Except FaultReason UnitState} (hl : u.l3 = some l)
    (he : u.endOff = some e) (h : e.toNat < l.toNat + k + n) :
    (readReg u.l3 >>= fun l => u.memRead (l.toNat + k) n >>= f l) = .error .oobRead := by
  rw [hl]
  exact memRead_bind_oob he fun _ hin => absurd hin (Nat.not_le.mpr h)

theorem q4_oob (hl : u.l3 = some l) (he : u.endOff = some e) (h : e.toNat < l.toNat + 20) : q4 u = .error .oobRead := by
  rw [q4, hl]
  exact memRead_bind_oob he fun _ _ => memRead_bind_oob he fun _ _ => memRead_bind_oob he fun _ _ =>
    memBytes_bind_oob he fun _ _ => memBytes_bind_oob he fun _ hin => absurd hin (by omega)

theorem q6_oob (hl : u.l3 = some l) (he : u.endOff = some e) (h : e.toNat < l.toNat + 40) : q6 u = .error .oobRead := by
  rw [q6, hl]
  exact memRead_bind_oob he fun _ _ => memRead_bind_oob he fun _ _ => memRead_bind_oob he fun _ _ =>
    memBytes_bind_oob he fun _ _ => memBytes_bind_oob he fun _ hin => absurd hin (by omega)

theorem cudp_oob (hp : u.pos = some p) (he : u.endOff = some e) (h : e.toNat < p.toNat + 4) : cudp u = .error .oobRead := by
  rw [cudp, hp]
  exact memRead_bind_oob he fun _ _ => memRead_bind_oob he fun _ hin => absurd hin (by omega)

/-- DEC4 reads the TTL and the checksum before it writes either. -/
theorem dec4_oob (cfg : BitVec 4) (unit : Nat) (hl : u.l3 = some l) (he : u.endOff = some e)
    (h : e.toNat < l.toNat + 12) : dec4 cfg unit u = .error .oobRead := by
  rw [dec4, hl]
  exact memRead_bind_oob he fun _ _ => memRead_bind_oob he fun _ hin => absurd hin (by omega)

/-- L2RW faults at its first write or at its second. -/
theorem l2rw_oob {a : LookupResult} (ha : u.r = some a) (he : u.endOff = some e) (h : e.toNat < 12) :
    l2rw u = .error .oobWrite := by
  rw [l2rw, ha]
  exact memWriteBytes_bind_oob he fun _ => memWriteBytes_bind_oob he fun hin => absurd hin (by simpa using h)

end

/-- Settles O45: of what each micro-operation reads, the last byte decides, and a fault discards what was written before it. -/
theorem outOfBoundsAccessFaults : Obligations.OutOfBoundsAccessFaults := by
  unfold Obligations.OutOfBoundsAccessFaults
  intro s u l p e hu hl hp he fault
  have faults : ∀ i, unitMeaning i s.cfg s.turn u = .error .oobRead → exec i s = fault := fun i h => exec_raises hu h
  have octet : l.toNat + (if s.cfg.getLsbD 0 then 20 else 17) = l.toNat + dstOctetOffset s.cfg + 1 := by
    unfold dstOctetOffset; split <;> rfl
  refine ⟨fun h => ?c4dst, fun h => ?c4frag, fun h => ?c4l4, fun h => ?c6l4, fun h => ?cudp, fun h => ?ttl4, fun h => ?ttl6,
    fun h => ?q4, fun h => ?q6, fun h => ?dec4, fun h => ?dec6, fun a ha h => ?l2rw⟩
  case c4dst => exact faults _ (header_read_oob hl he (octet ▸ h))
  case c4frag | c4l4 | c6l4 | ttl4 | ttl6 | dec6 => exact faults _ (header_read_oob hl he h)
  case cudp => exact faults _ (cudp_oob hp he h)
  case q4 => exact faults _ (q4_oob hl he h)
  case q6 => exact faults _ (q6_oob hl he h)
  case dec4 => exact faults _ (dec4_oob _ _ hl he h)
  case l2rw => exact exec_raises hu (l2rw_oob ha he h)

/-! ### Which bytes a micro-operation writes -/

/-- The unit whose turn it was is, after a micro-operation, what the meaning answers, or in FAULT. -/
theorem exec_next_cur {i : Instr} {s t : State} {u y : UnitState} (hu : s.cur = some u) (hexec : exec i s = .next t)
    (hy : t.cur = some y) : unitMeaning i s.cfg s.turn u = .ok y ∨ ∃ r, y = u.raise r := by
  obtain ⟨v, hv, ⟨y', h, rfl⟩ | ⟨r, -, rfl⟩⟩ := exec_next hexec <;> obtain rfl : u = v := Option.some.inj (hu.symm.trans hv)
  · obtain rfl : y' = y := Option.some.inj ((State.cur_put hu _).symm.trans hy)
    exact .inl h
  · exact .inr ⟨r, Option.some.inj (hy.symm.trans (State.cur_put hu _))⟩

/-- The micro-operations R50 does not list keep the frame (R51). -/
theorem unitMeaning_keeps_frame {i : Instr} {cfg : BitVec 4} {unit : Nat} {u y : UnitState} (h4 : i ≠ .dec4) (h6 : i ≠ .dec6)
    (h2 : i ≠ .l2rw) (h : unitMeaning i cfg unit u = .ok y) : y.frame = u.frame := by
  cases i with
  | ill => exact (ill_ok (u := u) h).elim
  | cinit => rw [cinit_ok h]; rfl
  | chk n => obtain ⟨p, e, -, -, ⟨-, rfl⟩ | ⟨-, rfl⟩⟩ := chk_ok h <;> rfl
  | adv n => obtain ⟨p, e, -, -, ⟨-, rfl⟩ | ⟨-, rfl⟩⟩ := adv_ok h <;> rfl
  | eth => obtain ⟨p, e, -, -, ⟨-, rfl⟩ | ⟨-, rfl⟩⟩ := eth_ok h <;> rfl
  | vlan => obtain ⟨pr, -, ⟨-, rfl⟩ | ⟨-, p, e, -, -, ⟨-, rfl⟩ | ⟨-, d, -, rfl⟩⟩⟩ := vlan_ok h <;> simp
  | jp4 a => obtain ⟨pr, -, ⟨-, rfl⟩ | ⟨-, p, -, rfl⟩⟩ := branchOnProto_ok h <;> rfl
  | jp6 a => obtain ⟨pr, -, ⟨-, rfl⟩ | ⟨-, p, -, rfl⟩⟩ := branchOnProto_ok h <;> rfl
  | unsup => rw [unsup_ok h]; rfl
  | c4dst => obtain ⟨l, e, -, -, -, ⟨-, rfl⟩ | ⟨-, rfl⟩⟩ := c4dst_ok h <;> rfl
  | c4frag => obtain ⟨l, e, -, -, -, ⟨-, rfl⟩ | ⟨-, rfl⟩⟩ := c4frag_ok h <;> rfl
  | c4l4 =>
    obtain ⟨l, e, -, -, -, ⟨-, rfl⟩ | ⟨-, -, rfl⟩ | ⟨-, -, -, rfl⟩ | ⟨-, -, -, rfl⟩⟩ := c4l4_ok h <;> simp
  | c6l4 => obtain ⟨l, e, -, -, -, ⟨-, rfl⟩ | ⟨-, rfl⟩⟩ := c6l4_ok h <;> rfl
  | cudp => obtain ⟨p, e, -, -, -, ⟨-, rfl⟩ | ⟨-, rfl⟩⟩ := cudp_ok h <;> rfl
  | ttl4 => obtain ⟨l, e, -, -, -, ⟨-, rfl⟩ | ⟨-, rfl⟩⟩ := hopGuardAt_ok h <;> rfl
  | q4 => obtain ⟨l, e, -, -, -, rfl⟩ := q4_ok h; rfl
  | ttl6 => obtain ⟨l, e, -, -, -, ⟨-, rfl⟩ | ⟨-, rfl⟩⟩ := hopGuardAt_ok h <;> rfl
  | q6 => obtain ⟨l, e, -, -, -, rfl⟩ := q6_ok h; rfl
  | fib => obtain ⟨q, -, rfl⟩ := fib_ok h; simp
  | fdisp => obtain ⟨r, -, ⟨-, rfl⟩ | ⟨-, rfl⟩ | ⟨-, rfl⟩⟩ := fdisp_ok h <;> rfl
  | dec4 => exact absurd rfl h4
  | dec6 => exact absurd rfl h6
  | l2rw => exact absurd rfl h2
  | redir => obtain ⟨r, -, ⟨-, rfl⟩ | ⟨-, -, rfl⟩ | ⟨-, -, rfl⟩⟩ := redir_ok h <;> simp
  | fin => obtain ⟨a, -, ⟨-, rfl⟩ | ⟨-, e, tgt, -, -, rfl⟩⟩ := fin_ok h <;> rfl

/-- Settles O50: neither an effect of these micro-operations nor a fault writes the frame. -/
theorem nonStoringMicroOpsKeepFrame : Obligations.NonStoringMicroOpsKeepFrame := by
  unfold Obligations.NonStoringMicroOpsKeepFrame
  intro i s t u y h4 h6 h2 hu hexec hy b
  obtain h | ⟨r, rfl⟩ := exec_next_cur hu hexec hy
  · rw [unitMeaning_keeps_frame h4 h6 h2 h]
  · rfl

/-- The unit with another frame, pc, ST and draw count: what a micro-operation of R50 may leave. -/
def OnlyFrameWritten (u y : UnitState) : Prop := y = { u with frame := y.frame, pc := y.pc, st := y.st, draws := y.draws }

theorem hopAsked_onlyFrameWritten (u : UnitState) (h : Nat) (m : Memory) :
    OnlyFrameWritten u { u.hopAsked h with frame := m }.advance := by
  unfold UnitState.hopAsked; split <;> rfl

section
variable {cfg : BitVec 4} {unit : Nat} {u y : UnitState}

theorem dec4_writeSet (h : dec4 cfg unit u = .ok y) :
    OnlyFrameWritten u y ∧ ∀ (l : Offset) (b : Nat), u.l3 = some l → b ≠ l.toNat + 8 → b ≠ l.toNat + 10 → b ≠ l.toNat + 11 →
      y.frame.read b = u.frame.read b := by
  obtain ⟨l, e, hl, -, -, rfl⟩ := dec4_ok h
  refine ⟨hopAsked_onlyFrameWritten .., fun l' b hl' h8 h10 h11 => ?_⟩
  obtain rfl : l = l' := Option.some.inj (hl.symm.trans hl')
  rw [UnitState.advance_frame, Memory.read_writeBytes_outside _ _ _ _ (by rw [length_beBytes]; omega),
    Memory.read_writeBytes_outside _ _ _ _ (by rw [length_beBytes]; omega)]

theorem dec6_writeSet (h : dec6 unit u = .ok y) :
    OnlyFrameWritten u y ∧ ∀ (l : Offset) (b : Nat), u.l3 = some l → b ≠ l.toNat + 7 → y.frame.read b = u.frame.read b := by
  obtain ⟨l, e, hl, -, -, rfl⟩ := dec6_ok h
  refine ⟨hopAsked_onlyFrameWritten .., fun l' b hl' h7 => ?_⟩
  obtain rfl : l = l' := Option.some.inj (hl.symm.trans hl')
  rw [UnitState.advance_frame, Memory.read_writeBytes_outside _ _ _ _ (by rw [length_beBytes]; omega)]

theorem l2rw_writeSet (h : l2rw u = .ok y) :
    OnlyFrameWritten u y ∧ ∀ b, 12 ≤ b → y.frame.read b = u.frame.read b := by
  obtain ⟨r, e, -, -, -, rfl⟩ := l2rw_ok h
  refine ⟨rfl, fun b h12 => ?_⟩
  rw [UnitState.advance_frame, Memory.read_writeBytes_outside _ _ _ _ (by rw [length_beBytes]; omega),
    Memory.read_writeBytes_outside _ _ _ _ (by rw [length_beBytes]; omega)]

end

/-- Settles O51: of each of the three, its write set; a fault writes ST only. -/
theorem storingMicroOpsWriteSet : Obligations.StoringMicroOpsWriteSet := by
  unfold Obligations.StoringMicroOpsWriteSet
  intro i s t u y hi hu hexec hy
  obtain h | ⟨r, rfl⟩ := exec_next_cur hu hexec hy
  case inr => exact ⟨rfl, fun _ _ _ _ _ _ _ => rfl, fun _ _ _ _ _ => rfl, fun _ _ _ => rfl⟩
  obtain rfl | rfl | rfl := hi
  · obtain ⟨hregs, hframe⟩ := dec4_writeSet h
    exact ⟨hregs, fun l b _ => hframe l b, nofun, nofun⟩
  · obtain ⟨hregs, hframe⟩ := dec6_writeSet h
    exact ⟨hregs, nofun, fun l b _ => hframe l b, nofun⟩
  · obtain ⟨hregs, hframe⟩ := l2rw_writeSet h
    exact ⟨hregs, nofun, nofun, fun b _ => hframe b⟩

/-! ### A monitor read -/

theorem State.monitorRead_ok {s : State} {v a : Nat} {x : UnitState} {c : Record} (f : CounterField) (hx : s.units[v]? = some x)
    (hc : x.ct.get? a = some c) :
    s.monitorRead v a f = .next { s with monitorLog := ⟨v, a, f, c.field f⟩ :: s.monitorLog } := by
  simp [State.monitorRead, hx, hc]

/-- Settles O15. -/
theorem monitorReadReturnsField : Obligations.MonitorReadReturnsField := by
  unfold Obligations.MonitorReadReturnsField
  intro s v a f rest x c hag hx hc
  rw [step_cons hag]
  exact State.monitorRead_ok (s := { s with agenda := rest }) f hx hc

end Sys2Proof.Machine
end

section
/-! PROOFS. The statements of 30_encoding.md: the encoder and the decoder agree, and the opcode map of R64 gives ILL for exactly
the words R66 lists. -/

namespace Sys2Proof

/-! ### Decoding an encoded micro-operation -/

/-- Settles O1, by the round trip of each micro-operation. -/
theorem decodeOfEncode : Obligations.DecodeOfEncode := by
  unfold Obligations.DecodeOfEncode
  intro i
  cases i with
  | ill => exact Laws.RoundTrip.ill
  | cinit => exact Laws.RoundTrip.cinit
  | chk n => exact Laws.RoundTrip.chk n
  | adv n => exact Laws.RoundTrip.adv n
  | eth => exact Laws.RoundTrip.eth
  | vlan => exact Laws.RoundTrip.vlan
  | jp4 t => exact Laws.RoundTrip.jp4 t
  | jp6 t => exact Laws.RoundTrip.jp6 t
  | unsup => exact Laws.RoundTrip.unsup
  | c4dst => exact Laws.RoundTrip.c4dst
  | c4frag => exact Laws.RoundTrip.c4frag
  | c4l4 => exact Laws.RoundTrip.c4l4
  | c6l4 => exact Laws.RoundTrip.c6l4
  | cudp => exact Laws.RoundTrip.cudp
  | ttl4 => exact Laws.RoundTrip.ttl4
  | q4 => exact Laws.RoundTrip.q4
  | ttl6 => exact Laws.RoundTrip.ttl6
  | q6 => exact Laws.RoundTrip.q6
  | fib => exact Laws.RoundTrip.fib
  | fdisp => exact Laws.RoundTrip.fdisp
  | dec4 => exact Laws.RoundTrip.dec4
  | dec6 => exact Laws.RoundTrip.dec6
  | l2rw => exact Laws.RoundTrip.l2rw
  | redir => exact Laws.RoundTrip.redir
  | fin => exact Laws.RoundTrip.fin

/-! ### The fields of a word as numbers -/

theorem toNat_opField (w : Word) : (opField w).toNat = w.toNat / 256 := by
  simp only [opField, BitVec.extractLsb'_toNat, Nat.shiftRight_eq_div_pow]; omega

theorem toNat_immField (w : Word) : (immField w).toNat = w.toNat % 256 := by
  simp [immField, BitVec.extractLsb'_toNat]

@[simp] theorem toNat_packWord_div (op imm : BitVec 8) : (packWord op imm).toNat / 256 = op.toNat := by
  rw [← toNat_opField, opField_packWord]

@[simp] theorem toNat_packWord_mod (op imm : BitVec 8) : (packWord op imm).toNat % 256 = imm.toNat := by
  rw [← toNat_immField, immField_packWord]

/-! ### The imm a format admits (R62) -/

theorem Format.reject_N_eq_none {imm : BitVec 8} : Format.N.reject imm = none ↔ imm = 0 := by
  simp [Format.reject]

theorem Format.reject_L_eq_none (imm : BitVec 8) : Format.L.reject imm = none := rfl

theorem Format.reject_T_eq_none {imm : BitVec 8} : Format.T.reject imm = none ↔ imm.toNat / 64 = 0 := by
  revert imm; decide

/-- What a format-T row admits is its target, widened. -/
theorem setWidth_targetOperand {imm : BitVec 8} (h : Format.T.reject imm = none) : (targetOperand imm).setWidth 8 = imm := by
  revert imm; decide

/-! ### The rows of the opcode map (R64) -/

/-- A word is packed from the op of a row, or from an op that has none. -/
theorem row_or_no_row (w : Word) :
    (∃ r ∈ opcodeMap, ∃ imm, w = packWord r.op imm) ∨ ∃ op imm, w = packWord op imm ∧ ∀ r ∈ opcodeMap, r.op ≠ op := by
  by_cases h : ∃ r ∈ opcodeMap, r.op = opField w
  · obtain ⟨r, hr, hop⟩ := h
    exact .inl ⟨r, hr, immField w, hop ▸ (packWord_fields w).symm⟩
  · exact .inr ⟨opField w, immField w, (packWord_fields w).symm, fun r hr hop => h ⟨r, hr, hop⟩⟩

/-- No two rows have the same op. -/
theorem find_row {r : OpRow} (hr : r ∈ opcodeMap) : opcodeMap.find? (fun q => q.op == r.op) = some r := by
  revert r
  simp only [opcodeMap, List.cons_append, List.nil_append, List.forall_mem_cons]
  simp

/-- A word whose op has a row decodes to what the row gives for its imm, or, where the format does not admit the imm, to ILL. -/
theorem decode_of_row {r : OpRow} (hr : r ∈ opcodeMap) (imm : BitVec 8) :
    decode (packWord r.op imm) = if r.format.reject imm = none then r.make imm else .ill := by
  simp only [decode, decodeRow, opField_packWord, immField_packWord, find_row hr]
  cases r.format.reject imm <;> simp

/-- A word whose op has no row decodes to ILL. -/
theorem decode_of_no_row {op : BitVec 8} (h : ∀ r ∈ opcodeMap, r.op ≠ op) (imm : BitVec 8) :
    decode (packWord op imm) = .ill := by
  have hfind : opcodeMap.find? (fun r => r.op == op) = none := by simpa using h
  simp only [decode, decodeRow, opField_packWord, hfind]

/-- What a row gives for an imm its format admits is encoded as the row's op and that imm. -/
theorem encode_of_row {r : OpRow} (hr : r ∈ opcodeMap) {imm : BitVec 8} (himm : r.format.reject imm = none) :
    encode (r.make imm) = packWord r.op imm := by
  revert r
  simp only [opcodeMap, List.cons_append, List.nil_append, List.forall_mem_cons]
  simp +contextual [encode, Format.reject_N_eq_none, setWidth_targetOperand]

/-! ### The list of illegal words (R66) against the map -/

/-- The ops R66 lists as absent are those that have no row. -/
theorem opAbsent_of_no_row {op : BitVec 8} (h : ∀ r ∈ opcodeMap, r.op ≠ op) : opAbsent op.toNat = true := by
  have hlt : op.toNat < 256 := op.isLt
  simp only [opcodeMap, List.cons_append, List.nil_append, List.forall_mem_cons, ne_eq, ← BitVec.toNat_inj,
    BitVec.reduceToNat] at h
  simp only [opAbsent, Bool.or_eq_true, Bool.and_eq_true, decide_eq_true_eq]
  omega

theorem illegalWord_of_no_row {op : BitVec 8} (h : ∀ r ∈ opcodeMap, r.op ≠ op) (imm : BitVec 8) :
    illegalWord (packWord op imm) = true := by
  simp [illegalWord, opAbsent_of_no_row h]

/-- Of a word whose op has a row, R66 lists it exactly when the row does not admit its imm or gives ILL. -/
theorem illegalWord_of_row {r : OpRow} (hr : r ∈ opcodeMap) (imm : BitVec 8) :
    illegalWord (packWord r.op imm) = true ↔ (r.format.reject imm = none → r.make imm = .ill) := by
  revert r
  simp only [opcodeMap, List.cons_append, List.nil_append, List.forall_mem_cons]
  simp [illegalWord, opAbsent, Format.reject_N_eq_none, Format.reject_T_eq_none, Format.reject_L_eq_none, ← BitVec.toNat_inj]

/-- Settles O3: an op without a row is one R66 lists as absent, and a row says of each imm what R66 says. -/
theorem illegalWordsExecuteAsIll : Obligations.IllegalWordsExecuteAsIll := by
  unfold Obligations.IllegalWordsExecuteAsIll
  intro w
  obtain ⟨r, hr, imm, rfl⟩ | ⟨op, imm, rfl, hno⟩ := row_or_no_row w
  · rw [decode_of_row hr, illegalWord_of_row hr, ite_eq_right_iff]
  · simp [decode_of_no_row hno, illegalWord_of_no_row hno]

/-- Settles O2: a legal word is a row's op with an imm the row admits. -/
theorem encodeOfDecode : Obligations.EncodeOfDecode := by
  unfold Obligations.EncodeOfDecode
  intro w hlegal
  have hill : decode w ≠ .ill := fun h => by simp [legalWord, (illegalWordsExecuteAsIll w).mp h] at hlegal
  refine ⟨hill, ?_⟩
  obtain ⟨r, hr, imm, rfl⟩ | ⟨op, imm, rfl, hno⟩ := row_or_no_row w
  · rw [decode_of_row hr] at hill ⊢
    have himm : r.format.reject imm = none := by_contra fun h => hill (if_neg h)
    rw [if_pos himm, encode_of_row hr himm]
  · exact absurd (decode_of_no_row hno imm) hill

/-- Settles O4: nine of the words are encodings, and R66 lists the other three. -/
theorem decodedSampleWords : Obligations.DecodedSampleWords := by
  unfold Obligations.DecodedSampleWords
  have listed : ∀ w, illegalWord w = true → decode w = .ill := fun w => (illegalWordsExecuteAsIll w).mpr
  exact ⟨decodeOfEncode (.chk 20), decodeOfEncode (.adv 40), decodeOfEncode .eth, decodeOfEncode (.jp4 0x07),
    decodeOfEncode (.jp6 0x0D), decodeOfEncode .cudp, decodeOfEncode .fdisp, decodeOfEncode .redir, decodeOfEncode .fin,
    listed _ rfl, listed _ rfl, listed _ rfl⟩

end Sys2Proof
end

section
/-! PROOFS. The statements of 40_cursor.md: what CINIT, CHK and ADV do, and what both programs do with a frame shorter than an
Ethernet header. -/

namespace Sys2Proof

/-! ### The word of a format-L micro-operation (R62, R68) -/

theorem toNat_packWord (op imm : BitVec 8) : (packWord op imm).toNat = 256 * op.toNat + imm.toNat := by
  simpa using (Nat.div_add_mod (packWord op imm).toNat 256).symm

/-- The imm of a word adds to the word of its op alone. -/
theorem packWord_eq_add (op imm : BitVec 8) : packWord op imm = packWord op 0 + imm.setWidth 16 := by
  have hop := op.isLt
  have himm := imm.isLt
  apply BitVec.eq_of_toNat_eq
  simp only [BitVec.toNat_add, BitVec.toNat_setWidth, toNat_packWord, BitVec.ofNat_eq_ofNat, BitVec.toNat_ofNat]
  omega

namespace Machine

/-! ### A micro-operation that completes -/

/-- A meaning that answers a unit puts it in the place of the one whose step it was. -/
theorem exec_ok {i : Instr} {s : State} {u y : UnitState} (hu : s.cur = some u)
    (h : unitMeaning i s.cfg s.turn u = .ok y) : exec i s = .next (s.put y) := by
  rw [exec_eq_onUnit]
  exact State.onUnit_ok hu h

/-! ### The cursor micro-operations -/

/-- The unit after CINIT (R79). -/
def UnitState.afterCinit (u : UnitState) : UnitState :=
  { u with pos := some 0, endOff := some u.len, l3 := some 0, proto := some 0, vdepth := some 0, act := some actPass,
           cause := some causeNone }.advance

/-- CINIT reads no register, so it answers on every unit. -/
theorem cinit_eq (u : UnitState) : cinit u = .ok u.afterCinit := rfl

section
variable {u : UnitState} {p e : Offset} (hp : u.pos = some p) (he : u.endOff = some e)
include hp he

/-- A check of n bytes at pos goes on where they are there, and resolves PASS/TRUNC where they are not (R78). -/
theorem checked_eq (n : Nat) (yes : Offset → Except FaultReason UnitState) :
    (do
      let p ← readReg u.pos
      if ← u.check p.toNat n then yes p else return u.resolve actPass causeTrunc) =
      if p.toNat + n ≤ e.toNat then yes p else .ok (u.resolve actPass causeTrunc) := by
  simp [hp, UnitState.check_eq he]

theorem chk_of_le {n : BitVec 8} (h : p.toNat + n.toNat ≤ e.toNat) : chk n u = .ok u.advance :=
  (checked_eq hp he _ _).trans (if_pos h)

theorem chk_of_lt {n : BitVec 8} (h : e.toNat < p.toNat + n.toNat) :
    chk n u = .ok (u.resolve actPass causeTrunc) :=
  (checked_eq hp he _ _).trans (if_neg (Nat.not_le.mpr h))

theorem adv_of_le {n : BitVec 8} (h : p.toNat + n.toNat ≤ e.toNat) :
    adv n u = .ok { u with pos := some (BitVec.ofNat 32 (p.toNat + n.toNat)) }.advance :=
  (checked_eq hp he _ _).trans (if_pos h)

theorem adv_of_lt {n : BitVec 8} (h : e.toNat < p.toNat + n.toNat) :
    adv n u = .ok (u.resolve actPass causeTrunc) :=
  (checked_eq hp he _ _).trans (if_neg (Nat.not_le.mpr h))

theorem eth_of_lt (h : e.toNat < p.toNat + 14) : eth u = .ok (u.resolve actPass causeTrunc) :=
  (checked_eq hp he _ _).trans (if_neg (Nat.not_le.mpr h))

end

/-- A sum that is at most an offset is one. -/
theorem toNat_ofNat_of_le {v : Nat} {e : Offset} (h : v ≤ e.toNat) : (BitVec.ofNat 32 v).toNat = v :=
  Nat.mod_eq_of_lt (Nat.lt_of_le_of_lt h e.isLt)

/-- Settles O18. -/
theorem cinitInitialises : Obligations.CinitInitialises := by
  unfold Obligations.CinitInitialises
  exact ⟨rfl, fun s u hu => exec_ok hu (cinit_eq u)⟩

/-- Settles O19, by the two answers of the check. -/
theorem chkChecksHeader : Obligations.ChkChecksHeader := by
  unfold Obligations.ChkChecksHeader
  intro n
  refine ⟨packWord_eq_add 0x11 n, fun s u p e hu hp he => ⟨fun hle => ?enough, fun hlt => ?short⟩⟩
  case enough => exact exec_ok hu (chk_of_le hp he hle)
  case short => exact exec_ok hu (chk_of_lt hp he hlt)

/-- Settles O20, by the two answers of the check: a sum that passes it fits pos. -/
theorem advAdvancesCursor : Obligations.AdvAdvancesCursor := by
  unfold Obligations.AdvAdvancesCursor
  intro n
  refine ⟨packWord_eq_add 0x12 n, fun s u p e hu hp he => ⟨fun hle => ?enough, fun hlt => ?short⟩⟩
  case enough => exact ⟨_, toNat_ofNat_of_le hle, exec_ok hu (adv_of_le hp he hle)⟩
  case short => exact exec_ok hu (adv_of_lt hp he hlt)

/-! ### A unit that runs alone -/

theorem run_succ_of_next {s t : State} (h : step s = .next t) (k : Nat) :
    Host.Core.run core (k + 1) s = Host.Core.run core k t := by
  have hcore : core.step s = .next t := h
  simp only [Host.Core.run, hcore]

/-- With no other move to come, a run of a core whose moving unit is in RUN begins with the micro-operation at its pc. -/
theorem run_put_succ {s : State} {u y : UnitState} {w : Word} (k : Nat) (hturn : s.turn < s.units.length)
    (hag : s.agenda = []) (hst : u.st = .run) (hw : s.fetch u = some w)
    (h : unitMeaning (decode w) s.cfg s.turn u = .ok y) :
    Host.Core.run core (k + 1) (s.put u) = Host.Core.run core k (s.put y) := by
  have hcur : (s.put u).cur = some u := by simp [State.cur, hturn]
  have hstep : step (s.put u) = .next (s.put y) := by
    rw [step_nil (by simpa using hag), unitStep_run hcur hst hw, exec_ok hcur h, State.put_put]
  exact run_succ_of_next hstep k

/-- At an address where both programs hold the same word, that word is fetched whichever is attached. -/
theorem State.fetch_of_shared {s : State} {u : UnitState} {pc : BitVec 6} {w : Word} (hrom0 : s.rom0 = romDropFilter)
    (hrom1 : s.rom1 = romForwarder) (hprog : s.prog = 1 ∨ s.prog = 2) (hpc : u.pc = pc)
    (hw : romDropFilter.getD pc.toNat 0 = w ∧ romForwarder.getD pc.toNat 0 = w) : s.fetch u = some w := by
  obtain ⟨h0, h1⟩ := hw
  subst hpc
  obtain hprog | hprog := hprog
  · rw [State.fetch, State.selectedRom, if_pos hprog, hrom0, Option.map_some, h0]
  · rw [State.fetch, State.selectedRom, if_neg (by simp [hprog]), if_pos hprog, hrom1, Option.map_some, h1]

/-- FIN counts and responds a known action other than REDIRECT, with no target (R120). -/
theorem fin_of_no_target {u : UnitState} {a : BitVec 3} {e : Offset} (ha : u.act = some a) (he : u.endOff = some e)
    (hknown : a.toNat < 5) (hredir : a ≠ actRedirect) :
    fin u = .ok ({ u with ct := u.ct.count a.toNat e }.respond a none) := by
  simp [fin, ha, he, actionMax, Nat.not_le.mpr hknown, UnitState.targetOut, hredir]

/-! ### A frame shorter than an Ethernet header (R82, R83) -/

/-- Three steps take a unit that starts on a short frame through CINIT, ETH and FIN. -/
theorem run_short_frame {s : State} {u : UnitState} {r : Request} (hturn : s.turn < s.units.length) (hag : s.agenda = [])
    (hrom0 : s.rom0 = romDropFilter) (hrom1 : s.rom1 = romForwarder) (hprog : s.prog = 1 ∨ s.prog = 2)
    (hlen : r.len.toNat < 14) :
    Host.Core.run core 3 (s.put (u.start r)) =
      .next (s.put ({ (u.start r).afterCinit.resolve actPass causeTrunc with
                      ct := u.ct.count actPass.toNat r.len }.respond actPass none)) := by
  have fetched {v : UnitState} (pc : BitVec 6) (w : Word) :=
    State.fetch_of_shared (u := v) (pc := pc) (w := w) hrom0 hrom1 hprog
  calc Host.Core.run core 3 (s.put (u.start r))
    _ = Host.Core.run core 2 (s.put (u.start r).afterCinit) :=
      run_put_succ 2 hturn hag rfl (fetched 0x00 0x1000 rfl (by decide)) (cinit_eq _)
    _ = Host.Core.run core 1 (s.put ((u.start r).afterCinit.resolve actPass causeTrunc)) :=
      run_put_succ 1 hturn hag rfl (fetched 0x01 0x2000 rfl (by decide)) (eth_of_lt rfl rfl (by simpa using hlen))
    _ = _ :=
      run_put_succ 0 hturn hag rfl (fetched finPc 0x5000 rfl (by decide))
        (fin_of_no_target rfl rfl (by decide) (by decide))

/-- Settles O59: the unit goes through CINIT, ETH and FIN, and none of them writes the frame. -/
theorem shortFramesPass : Obligations.ShortFramesPass := by
  unfold Obligations.ShortFramesPass
  intro s s1 r hag hrom0 hrom1 hlen hsubmit
  obtain ⟨u, hu, -, hbytes, hprog, -, rfl⟩ := State.submit_next hsubmit
  have hturn : r.unit < s.units.length := (List.getElem?_eq_some_iff.mp hu).1
  have hrun := run_short_frame (s := { s with turn := r.unit }) (u := u) hturn hag hrom0 hrom1 hprog hlen
  refine ⟨u, _, _, hu, hrun, List.getElem?_set_self hturn, rfl, ?_⟩
  have hframe : (Memory.ofBytes r.bytes).bytes 0 r.len.toNat = r.bytes := by rw [← hbytes, Memory.bytes_ofBytes]
  exact congrArg (fun bs => ⟨actPass, none, bs⟩ :: u.responses) hframe

end Machine
end Sys2Proof
end

section
/-! PROOFS. The statements of 41_walker.md: what ETH, VLAN, JP4, JP6 and UNSUP do. -/

namespace Sys2Proof

/-- The target of a format-T micro-operation adds to the word of its op alone (R62, R68). -/
theorem packWord_target_eq_add (op : BitVec 8) (t : BitVec 6) :
    packWord op (t.setWidth 8) = packWord op 0 + t.setWidth 16 := by
  rw [packWord_eq_add, BitVec.setWidth_setWidth (by decide)]

namespace Machine

/-! ### The fields the walker reads and writes -/

/-- A 16-bit register holds a big-endian field of two bytes exactly (R44). -/
theorem toNat_ofNat_beValue_two (m : Memory) (o : Nat) :
    (BitVec.ofNat 16 (beValue (m.bytes o 2))).toNat = (m.read o).toNat * 256 + (m.read (o + 1)).toNat := by
  have hlt : beValue (m.bytes o 2) < 2 ^ 16 := by simpa using beValue_lt (m.bytes o 2)
  rw [BitVec.toNat_ofNat, Nat.mod_eq_of_lt hlt, beValue_two]

/-- The protocol ids of R86 are those VLAN unwraps. -/
theorem isVlanTpid_iff {pr : BitVec 16} : isVlanTpid pr = true ↔ pr = 0x8100 ∨ pr = 0x88A8 := by
  simp [isVlanTpid, et8021q, et8021ad]

/-- incVdepth writes vdepth, and draws only from depth 3; a depth below 3 is counted exactly. -/
theorem UnitState.incVdepth_eq (n unit : Nat) (d : BitVec 2) :
    ∃ (d' : BitVec 2) (k : Nat), (d ≠ 3 → d'.toNat = d.toNat + 1 ∧ k = n) ∧
      ∀ u : UnitState, u.draws = n → u.incVdepth unit d = { u with vdepth := some d', draws := k } := by
  by_cases hd : d = 3
  · refine ⟨Config.depthOver unit n, n + 1, fun hne => absurd hd hne, ?_⟩
    rintro u rfl
    exact if_pos hd
  · refine ⟨d + 1, n, fun _ => ⟨by bv_omega, rfl⟩, ?_⟩
    rintro u rfl
    exact if_neg hd

/-! ### What each walker micro-operation answers -/

section
variable {u : UnitState} {pr : BitVec 16} {p e : Offset}

theorem eth_of_le (hp : u.pos = some p) (he : u.endOff = some e) (h : p.toNat + 14 ≤ e.toNat) :
    eth u = .ok { u with proto := some (BitVec.ofNat 16 (beValue (u.frame.bytes (p.toNat + 12) 2))),
                         pos := some (BitVec.ofNat 32 (p.toNat + 14)) }.advance := by
  have hread := UnitState.memRead_ok he (o := p.toNat + 12) (n := 2) (by omega)
  exact ((checked_eq hp he _ _).trans (if_pos h)).trans (by rw [hread]; rfl)

theorem vlan_of_no_tag (unit : Nat) (hpr : u.proto = some pr) (htag : ¬ isVlanTpid pr = true) :
    vlan unit u = .ok u.advance := by
  simp [vlan, hpr, htag]

theorem vlan_of_lt (unit : Nat) (hpr : u.proto = some pr) (htag : isVlanTpid pr = true) (hp : u.pos = some p)
    (he : u.endOff = some e) (h : e.toNat < p.toNat + 4) : vlan unit u = .ok (u.resolve actPass causeTrunc) := by
  rw [vlan, hpr, readReg_some, bind_of_ok, if_pos htag]
  exact (checked_eq hp he _ _).trans (if_neg (Nat.not_le.mpr h))

theorem vlan_of_le {d : BitVec 2} (unit : Nat) (hpr : u.proto = some pr) (htag : isVlanTpid pr = true) (hp : u.pos = some p)
    (he : u.endOff = some e) (h : p.toNat + 4 ≤ e.toNat) (hd : u.vdepth = some d) :
    vlan unit u = .ok ({ u with proto := some (BitVec.ofNat 16 (beValue (u.frame.bytes (p.toNat + 2) 2))),
                                pos := some (BitVec.ofNat 32 (p.toNat + 4)) }.incVdepth unit d).advance := by
  have hread := UnitState.memRead_ok he (o := p.toNat + 2) (n := 2) (by omega)
  rw [vlan, hpr, readReg_some, bind_of_ok, if_pos htag]
  exact ((checked_eq hp he _ _).trans (if_pos h)).trans (by rw [hread, hd]; rfl)

theorem branchOnProto_taken {wanted : BitVec 16} (t : BitVec 6) (hpr : u.proto = some wanted) (hp : u.pos = some p) :
    branchOnProto wanted t u = .ok { u with l3 := some p, pc := t } := by
  simp [branchOnProto, hpr, hp]

theorem branchOnProto_not_taken {wanted : BitVec 16} (t : BitVec 6) (hpr : u.proto = some pr) (hne : pr ≠ wanted) :
    branchOnProto wanted t u = .ok u.advance := by
  simp [branchOnProto, hpr, hne]

end

/-- Both outcomes of a micro-operation that branches on `wanted` to t (R87, R88). -/
theorem exec_branch {i : Instr} {s : State} {u : UnitState} {pr wanted : BitVec 16} {t : BitVec 6}
    (hi : unitMeaning i s.cfg s.turn = branchOnProto wanted t) (hu : s.cur = some u) (hpr : u.proto = some pr) :
    (∀ p : Offset, pr = wanted → u.pos = some p → exec i s = .next (s.put { u with l3 := some p, pc := t })) ∧
    (pr ≠ wanted → exec i s = .next (s.put { u with pc := u.pc + 1 })) := by
  refine ⟨fun p heq hp => ?taken, fun hne => ?fallsThrough⟩
  case taken => exact exec_ok hu (hi ▸ branchOnProto_taken t (heq ▸ hpr) hp)
  case fallsThrough => exact exec_ok hu (hi ▸ branchOnProto_not_taken t hpr hne)

/-! ### The statements -/

/-- Settles O21, by the two answers of the check. -/
theorem ethReadsProtocolField : Obligations.EthReadsProtocolField := by
  unfold Obligations.EthReadsProtocolField
  refine ⟨rfl, fun s u p e hu hp he => ⟨fun hle => ?enough, fun hlt => ?short⟩⟩
  case enough =>
    exact ⟨_, _, toNat_ofNat_of_le hle, toNat_ofNat_beValue_two _ _, exec_ok hu (eth_of_le hp he hle)⟩
  case short => exact exec_ok hu (eth_of_lt hp he hlt)

/-- Settles O22, by whether proto names a tag and, at a tag, by the two answers of the check. -/
theorem vlanUnwrapsOneTag : Obligations.VlanUnwrapsOneTag := by
  unfold Obligations.VlanUnwrapsOneTag
  refine ⟨rfl, fun s u pr hu hpr => ⟨fun hno => ?noTag, fun p e htag hp he => ?atTag⟩⟩
  case noTag =>
    have hno : ¬ isVlanTpid pr = true := by rw [isVlanTpid_iff]; exact not_or.mpr hno
    exact exec_ok hu (vlan_of_no_tag _ hpr hno)
  case atTag =>
    have htag := isVlanTpid_iff.mpr htag
    refine ⟨fun hlt => exec_ok hu (vlan_of_lt _ hpr htag hp he hlt), fun hle d hd => ?_⟩
    have hvlan := vlan_of_le s.turn hpr htag hp he hle hd
    obtain ⟨d', k, hcount, hinc⟩ := UnitState.incVdepth_eq u.draws s.turn d
    simp only [hinc] at hvlan
    exact ⟨_, _, d', k, toNat_ofNat_of_le hle, toNat_ofNat_beValue_two _ _, hcount, exec_ok hu hvlan⟩

/-- Settles O23. -/
theorem jp4BranchesOnIPv4 : Obligations.Jp4BranchesOnIPv4 := by
  unfold Obligations.Jp4BranchesOnIPv4
  exact fun t => ⟨packWord_target_eq_add 0x22 t, fun s u pr hu hpr => exec_branch rfl hu hpr⟩

/-- Settles O24. -/
theorem jp6BranchesOnIPv6 : Obligations.Jp6BranchesOnIPv6 := by
  unfold Obligations.Jp6BranchesOnIPv6
  exact fun t => ⟨packWord_target_eq_add 0x23 t, fun s u pr hu hpr => exec_branch rfl hu hpr⟩

/-- Settles O25: UNSUP reads no register, so it resolves on every unit. -/
theorem unsupResolvesPass : Obligations.UnsupResolvesPass := by
  unfold Obligations.UnsupResolvesPass
  exact ⟨rfl, fun s u hu => exec_ok (i := .unsup) hu rfl⟩

end Machine
end Sys2Proof
end

section
/-! PROOFS. The statements of 42_classifier.md about one micro-operation: what C4DST, C4FRAG, C4L4, C6L4 and CUDP do. -/

namespace Sys2Proof.Machine

/-! ### The conditions the classifier tests -/

theorem isNetOrBroadcastOctet_iff {v : Nat} : isNetOrBroadcastOctet v = true ↔ v = 0 ∨ v = 255 := by
  simp [isNetOrBroadcastOctet]

theorem isDnsPort_iff {sp dp : Nat} : isDnsPort sp dp = true ↔ sp = 53 ∨ dp = 53 := by
  simp [isDnsPort, dnsPort]

/-- Bit 13 of the flags and offset field is bit 5 of its first byte (R94). -/
theorem isFragment_iff (hi lo : Byte) :
    isFragment (hi.toNat * 256 + lo.toNat) = true ↔
      hi.toNat / 32 % 2 = 1 ∨ (hi.toNat * 256 + lo.toNat) % 8192 ≠ 0 := by
  have hlo := lo.isLt
  simp only [isFragment, Bool.or_eq_true, bne_iff_ne, Nat.testBit_eq_decide_div_mod_eq, decide_eq_true_eq]
  omega

/-- The fragment test by the bits of the field's two bytes. -/
theorem isFragment_iff_bits (hi lo : Byte) :
    isFragment (hi.toNat * 256 + lo.toNat) = true ↔ hi.getLsbD 5 = true ∨ hi &&& 0x1F ≠ 0 ∨ lo ≠ 0 := by
  have hlo := lo.isLt
  have hmore : hi.getLsbD 5 = true ↔ hi.toNat / 32 % 2 = 1 := by
    simp [BitVec.getLsbD, Nat.testBit_eq_decide_div_mod_eq]
  have hhigh : hi &&& 0x1F = 0 ↔ hi.toNat % 32 = 0 := by
    rw [← BitVec.toNat_inj, BitVec.toNat_and]
    exact iff_of_eq (congrArg (· = 0) (Nat.and_two_pow_sub_one_eq_mod hi.toNat 5))
  have hlow : lo = 0 ↔ lo.toNat = 0 := BitVec.toNat_inj.symm
  rw [isFragment_iff, hmore, ne_eq (hi &&& 0x1F), hhigh, ne_eq lo, hlow]
  omega

/-! ### What each classifier micro-operation answers -/

section
variable {u : UnitState} {l e : Offset} (hl : u.l3 = some l) (he : u.endOff = some e)
include hl he

theorem c4dst_eq (cfg : BitVec 4) (h : l.toNat + dstOctetOffset cfg + 1 ≤ e.toNat) :
    c4dst cfg u =
      .ok (if isNetOrBroadcastOctet (u.frame.read (l.toNat + dstOctetOffset cfg)).toNat then u.resolve actDrop causeDstOct
           else u.advance) := by
  rw [c4dst, hl, readReg_some, bind_of_ok, UnitState.memRead_one he h, bind_of_ok]
  exact (apply_ite Except.ok _ _ _).symm

theorem c4frag_eq (h : l.toNat + 8 ≤ e.toNat) :
    c4frag u =
      .ok (if isFragment ((u.frame.read (l.toNat + 6)).toNat * 256 + (u.frame.read (l.toNat + 7)).toNat) then
             u.resolve actDrop causeFrag
           else u.advance) := by
  rw [c4frag, hl, readReg_some, bind_of_ok, UnitState.memRead_two he (by omega), bind_of_ok]
  exact (apply_ite Except.ok _ _ _).symm

theorem c6l4_eq (h : l.toNat + 7 ≤ e.toNat) :
    c6l4 u =
      .ok (if (u.frame.read (l.toNat + 6)).toNat ≠ 17 then u.resolve actPass causeDefault else u.advance) := by
  rw [c6l4, hl, readReg_some, bind_of_ok, UnitState.memRead_one he (by omega), bind_of_ok]
  exact (apply_ite Except.ok _ _ _).symm

section
variable (cfg : BitVec 4) (unit : Nat) (h : l.toNat + 10 ≤ e.toNat)
include h

/-- C4L4 past its first read. -/
theorem c4l4_eq :
    c4l4 cfg unit u =
      if (u.frame.read (l.toNat + 9)).toNat ≠ 17 then .ok (u.resolve actPass causeDefault)
      else if fixedL4Offset cfg then .ok (u.setPos unit (l.toNat + 20)).advance
      else if ihlOf (u.frame.read l.toNat).toNat < 5 then .ok (u.resolve actPass causeBadIhl)
      else .ok (u.setPos unit (l.toNat + 4 * ihlOf (u.frame.read l.toNat).toNat)).advance := by
  rw [c4l4, hl, readReg_some, bind_of_ok, UnitState.memRead_one he (by omega), bind_of_ok,
    UnitState.memRead_one he (by omega)]
  rfl

theorem c4l4_of_not_udp (hudp : (u.frame.read (l.toNat + 9)).toNat ≠ 17) :
    c4l4 cfg unit u = .ok (u.resolve actPass causeDefault) := by
  rw [c4l4_eq hl he cfg unit h, if_pos hudp]

theorem c4l4_of_bad_ihl (hudp : (u.frame.read (l.toNat + 9)).toNat = 17) (hcfg : cfg.getLsbD 1 = false)
    (hihl : (u.frame.read l.toNat).toNat % 16 < 5) : c4l4 cfg unit u = .ok (u.resolve actPass causeBadIhl) := by
  rw [c4l4_eq hl he cfg unit h, if_neg (not_not.mpr hudp), fixedL4Offset, hcfg, if_neg Bool.false_ne_true]
  exact if_pos hihl

/-- Both modes of CFG[1] (R95). -/
theorem c4l4_of_udp {sum : Nat} (hudp : (u.frame.read (l.toNat + 9)).toNat = 17)
    (hsum : cfg.getLsbD 1 = true ∧ sum = l.toNat + 20 ∨
      cfg.getLsbD 1 = false ∧ 5 ≤ (u.frame.read l.toNat).toNat % 16 ∧
        sum = l.toNat + 4 * ((u.frame.read l.toNat).toNat % 16)) :
    c4l4 cfg unit u = .ok (u.setPos unit sum).advance := by
  rw [c4l4_eq hl he cfg unit h, if_neg (not_not.mpr hudp), fixedL4Offset]
  obtain ⟨hcfg, rfl⟩ | ⟨hcfg, hihl, rfl⟩ := hsum
  · rw [if_pos hcfg]
  · rw [hcfg, if_neg Bool.false_ne_true]
    exact if_neg (Nat.not_lt.mpr hihl)

end
end

theorem cudp_eq {u : UnitState} {p e : Offset} (hp : u.pos = some p) (he : u.endOff = some e) (h : p.toNat + 4 ≤ e.toNat) :
    cudp u =
      .ok (if isDnsPort ((u.frame.read p.toNat).toNat * 256 + (u.frame.read (p.toNat + 1)).toNat)
                ((u.frame.read (p.toNat + 2)).toNat * 256 + (u.frame.read (p.toNat + 3)).toNat) then
             u.resolve actDrop causeDns
           else u.resolve actPass causeDefault) := by
  rw [cudp, hp, readReg_some, bind_of_ok, UnitState.memRead_two he (by omega), bind_of_ok,
    UnitState.memRead_two he (by omega), bind_of_ok]
  exact (apply_ite Except.ok _ _ _).symm

/-- setPos writes pos, and draws only where the sum does not fit it (log 14). -/
theorem UnitState.setPos_eq (u : UnitState) (unit v : Nat) :
    ∃ (p' : Offset) (k : Nat), (v < 2 ^ 32 → p'.toNat = v ∧ k = u.draws) ∧
      u.setPos unit v = { u with pos := some p', draws := k } := by
  by_cases hv : v < 2 ^ 32
  · exact ⟨BitVec.ofNat 32 v, u.draws, fun _ => ⟨Nat.mod_eq_of_lt hv, rfl⟩, if_pos hv⟩
  · exact ⟨_, _, fun h => absurd h hv, if_neg hv⟩

/-! ### The statements -/

/-- Both outcomes of a micro-operation that answers by a condition. -/
theorem exec_ite {i : Instr} {s : State} {u y z : UnitState} {c : Prop} [Decidable c] (hu : s.cur = some u)
    (h : unitMeaning i s.cfg s.turn u = .ok (if c then y else z)) :
    (c → exec i s = .next (s.put y)) ∧ (¬ c → exec i s = .next (s.put z)) :=
  ⟨fun hc => exec_ok hu (h.trans (congrArg _ (if_pos hc))), fun hc => exec_ok hu (h.trans (congrArg _ (if_neg hc)))⟩

/-- Settles O26, by the tested octet. -/
theorem c4dstDropsOctet0Or255 : Obligations.C4dstDropsOctet0Or255 := by
  unfold Obligations.C4dstDropsOctet0Or255
  refine ⟨rfl, fun s u l e k hu hl he hk hle => ?_⟩
  obtain rfl : k = l.toNat + dstOctetOffset s.cfg := by rw [hk, dstOctetOffset]; split <;> rfl
  obtain ⟨drop, goesOn⟩ := exec_ite (i := .c4dst) hu (c4dst_eq hl he s.cfg hle)
  rw [isNetOrBroadcastOctet_iff] at drop goesOn
  exact ⟨fun h => drop (h.imp (congrArg BitVec.toNat) (congrArg BitVec.toNat)),
    fun ⟨h0, h255⟩ => goesOn (not_or.mpr ⟨BitVec.toNat_ne.mp h0, BitVec.toNat_ne.mp h255⟩)⟩

/-- Settles O27, by the fragment test. -/
theorem c4fragDropsFragments : Obligations.C4fragDropsFragments := by
  unfold Obligations.C4fragDropsFragments
  refine ⟨rfl, fun s u l e hi lo hu hl he hle hhi hlo => ?_⟩
  obtain ⟨drop, goesOn⟩ := exec_ite (i := .c4frag) hu (c4frag_eq hl he hle)
  rw [← hhi, ← hlo, isFragment_iff_bits] at drop goesOn
  refine ⟨drop, fun ⟨hmore, hhigh, hlow⟩ => goesOn ?_⟩
  rintro (h | h | h)
  · exact Bool.false_ne_true (hmore.symm.trans h)
  · exact h hhigh
  · exact h hlow

/-- Settles O28, by the protocol byte and, for UDP, by where CFG[1] puts the UDP header. -/
theorem c4l4LocatesUdp : Obligations.C4l4LocatesUdp := by
  unfold Obligations.C4l4LocatesUdp
  refine ⟨rfl, fun s u l e ihl hu hl he hle hihl => ?_⟩
  subst hihl
  refine ⟨fun hno => ?notUdp, fun hudp hcfg hbad => ?badIhl, fun sum hudp hsum => ?udp⟩
  case notUdp => exact exec_ok hu (c4l4_of_not_udp hl he _ _ hle (BitVec.toNat_ne.mp hno))
  case badIhl => exact exec_ok hu (c4l4_of_bad_ihl hl he _ _ hle (congrArg BitVec.toNat hudp) hcfg hbad)
  case udp =>
    have hc4l4 := c4l4_of_udp hl he s.cfg s.turn hle (congrArg BitVec.toNat hudp) hsum
    obtain ⟨p', k, hfits, hpos⟩ := u.setPos_eq s.turn sum
    rw [hpos] at hc4l4
    exact ⟨p', k, hfits, exec_ok hu hc4l4⟩

/-- Settles O29, by the next-header byte. -/
theorem c6l4PassesNonUdp : Obligations.C6l4PassesNonUdp := by
  unfold Obligations.C6l4PassesNonUdp
  refine ⟨rfl, fun s u l e hu hl he hle => ?_⟩
  obtain ⟨pass, goesOn⟩ := exec_ite (i := .c6l4) hu (c6l4_eq hl he hle)
  exact ⟨fun hno => pass (BitVec.toNat_ne.mp hno), fun hudp => goesOn (not_not.mpr (congrArg BitVec.toNat hudp))⟩

/-- Settles O30, by the two ports. -/
theorem cudpDropsPort53 : Obligations.CudpDropsPort53 := by
  unfold Obligations.CudpDropsPort53
  refine ⟨rfl, fun s u p e sp dp hu hp he hle hsp hdp => ?_⟩
  obtain ⟨drop, pass⟩ := exec_ite (i := .cudp) hu (cudp_eq hp he hle)
  rw [← hsp, ← hdp, isDnsPort_iff] at drop pass
  exact ⟨drop, fun hno => pass (not_or.mpr hno)⟩

end Sys2Proof.Machine
end

section
/-! PROOFS. The walk both ROMs begin with (41_walker.md R90), run from the start of an invocation on a unit that runs alone. -/

namespace Sys2Proof.Machine

open Sys2Proof.Safety (byteAt fieldAt walk)

/-! ### Runs of one unit alone -/

/-- The unit to move runs alone, on a ROM. -/
structure RunsAlone (s : State) (rom : List Word) : Prop where
  turn_lt : s.turn < s.units.length
  agenda : s.agenda = []
  rom : s.selectedRom = some rom

/-- n steps take the core with unit u to move to the one with v in its place. -/
def StepsTo (s : State) (n : Nat) (u v : UnitState) : Prop :=
  ∀ k, Host.Core.run core (k + n) (s.put u) = Host.Core.run core k (s.put v)

theorem StepsTo.trans {s : State} {m n : Nat} {u v y : UnitState} (h : StepsTo s m u v) (h' : StepsTo s n v y) :
    StepsTo s (m + n) u y := by
  intro k
  rw [Nat.add_comm m, ← Nat.add_assoc]
  exact (h (k + n)).trans (h' k)

/-- One step runs the micro-operation at pc. -/
theorem RunsAlone.stepsTo {s : State} {rom : List Word} {u v : UnitState} {c : BitVec 6} {w : Word} (hs : RunsAlone s rom)
    (hst : u.st = .run) (hpc : u.pc = c) (hw : rom.getD c.toNat 0 = w)
    (h : unitMeaning (decode w) s.cfg s.turn u = .ok v) : StepsTo s 1 u v := by
  subst hw hpc
  exact fun k => run_put_succ k hs.turn_lt hs.agenda hst (by rw [State.fetch, hs.rom]; rfl) h

/-! ### A unit within an invocation -/

/-- The unit has run CINIT since it started on a request, and has written only pc and working registers since. -/
def Invoked (r : Request) (u0 u : UnitState) : Prop :=
  u = { u0.start r with endOff := some r.len, pc := u.pc, pos := u.pos, l3 := u.l3, proto := u.proto, vdepth := u.vdepth,
                        act := u.act, cause := u.cause }

section
variable {r : Request} {u0 u v : UnitState} {c : BitVec 6}

theorem Invoked.st (h : Invoked r u0 u) : u.st = .run := congrArg UnitState.st h
theorem Invoked.frame (h : Invoked r u0 u) : u.frame = Memory.ofBytes r.bytes := congrArg UnitState.frame h
theorem Invoked.len (h : Invoked r u0 u) : u.len = r.len := congrArg UnitState.len h
theorem Invoked.endOff (h : Invoked r u0 u) : u.endOff = some r.len := congrArg UnitState.endOff h
theorem Invoked.responses (h : Invoked r u0 u) : u.responses = u0.responses := by rw [h]; rfl
theorem Invoked.ct (h : Invoked r u0 u) : u.ct = u0.ct := by rw [h]; rfl

theorem Invoked.byte (h : Invoked r u0 u) (i : Nat) : (u.frame.read i).toNat = byteAt r.bytes i := by
  rw [h.frame, Memory.read_ofBytes]; rfl

theorem Invoked.field (h : Invoked r u0 u) (o : Nat) :
    (BitVec.ofNat 16 (beValue (u.frame.bytes o 2))).toNat = fieldAt r.bytes o := by
  rw [toNat_ofNat_beValue_two, h.byte, h.byte, fieldAt]

theorem Invoked.afterCinit (r : Request) (u0 : UnitState) : Invoked r u0 (u0.start r).afterCinit := rfl

/-- A micro-operation that writes pc and working registers only leaves the unit within the invocation. -/
theorem Invoked.write (h : Invoked r u0 u) (pc : BitVec 6) (pos l3 : Option Offset) (proto : Option (BitVec 16))
    (vdepth : Option (BitVec 2)) (act : Option (BitVec 3)) (cause : Option (BitVec 4)) :
    Invoked r u0 { u with pc := pc, pos := pos, l3 := l3, proto := proto, vdepth := vdepth, act := act, cause := cause } := by
  rw [h]
  exact rfl

/-- The unit is within the invocation, at a pc. -/
structure At (r : Request) (u0 u : UnitState) (c : BitVec 6) : Prop where
  invoked : Invoked r u0 u
  pc : u.pc = c

theorem At.stepsTo {s : State} {rom : List Word} {w : Word} (hat : At r u0 u c) (hs : RunsAlone s rom)
    (hw : rom.getD c.toNat 0 = w) (h : unitMeaning (decode w) s.cfg s.turn u = .ok v) : StepsTo s 1 u v :=
  hs.stepsTo hat.invoked.st hat.pc hw h

theorem At.advance (h : At r u0 u c) : At r u0 u.advance (c + 1) :=
  ⟨h.invoked.write _ _ _ _ _ _ _, congrArg (· + 1) h.pc⟩

theorem At.moveCursor (h : At r u0 u c) (o : Offset) : At r u0 { u with pos := some o }.advance (c + 1) :=
  ⟨h.invoked.write _ _ _ _ _ _ _, congrArg (· + 1) h.pc⟩

theorem At.branch (h : At r u0 u c) (l : Offset) (target : BitVec 6) : At r u0 { u with l3 := some l, pc := target } target :=
  ⟨h.invoked.write _ _ _ _ _ _ _, rfl⟩

/-- The unit has resolved an action, and FIN is next (R119). -/
structure Resolved (r : Request) (u0 u : UnitState) (a : BitVec 3) : Prop extends At r u0 u finPc where
  act : u.act = some a

theorem At.resolve (h : At r u0 u c) (a : BitVec 3) (cause : BitVec 4) : Resolved r u0 (u.resolve a cause) a :=
  ⟨⟨h.invoked.write _ _ _ _ _ _ _, rfl⟩, rfl⟩

/-! ### The walk -/

/-- The unit walks: pos and proto are those of the walk so far, and vdepth counts the tags, at most one for each VLAN passed. -/
structure Walking (r : Request) (u0 u : UnitState) (c : BitVec 6) (pr p : Nat) : Prop extends At r u0 u c where
  proto : ∃ q : BitVec 16, u.proto = some q ∧ q.toNat = pr
  pos : ∃ o : Offset, u.pos = some o ∧ o.toNat = p
  vdepth : ∃ d : BitVec 2, u.vdepth = some d ∧ p = 14 + 4 * d.toNat ∧ d.toNat + 2 ≤ c.toNat

/-- Where a unit stands on a walk's result: resolved PASS if there is none, and else at c. -/
def Walked (r : Request) (u0 u : UnitState) (c : BitVec 6) : Option (Nat × Nat) → Prop
  | none => Resolved r u0 u actPass
  | some (pr, p) => Walking r u0 u c pr p

/-- What one VLAN makes of a walk (R86). -/
def unwrapTag (f : List Byte) (pr p : Nat) : Option (Nat × Nat) :=
  if pr = 0x8100 ∨ pr = 0x88A8 then
    if f.length < p + 4 then none else some (fieldAt f (p + 2), p + 4)
  else some (pr, p)

theorem isVlanTpid_iff_toNat {pr : BitVec 16} : isVlanTpid pr = true ↔ pr.toNat = 0x8100 ∨ pr.toNat = 0x88A8 := by
  rw [isVlanTpid_iff, ← BitVec.toNat_inj, ← BitVec.toNat_inj]
  rfl

theorem walk_eq_unwrapTag {f : List Byte} (h : 14 ≤ f.length) :
    walk f = (unwrapTag f (fieldAt f 12) 14).bind fun w => unwrapTag f w.1 w.2 := by
  rw [walk, if_neg (Nat.not_lt.mpr h), unwrapTag]
  by_cases htag : fieldAt f 12 = 0x8100 ∨ fieldAt f 12 = 0x88A8
  · by_cases hlen : f.length < 18
    · simp [htag, hlen]
    · by_cases htag' : fieldAt f 16 = 0x8100 ∨ fieldAt f 16 = 0x88A8 <;> simp [htag, hlen, unwrapTag, htag']
  · simp [htag, unwrapTag]

section
variable (hlen : r.bytes.length = r.len.toNat)
include hlen

/-- ETH on a whole Ethernet header begins the walk (R85). -/
theorem eth_begins_walk (h : 14 ≤ r.bytes.length) :
    ∃ v, eth (u0.start r).afterCinit = .ok v ∧ Walking r u0 v 2 (fieldAt r.bytes 12) 14 := by
  have hinv := Invoked.afterCinit r u0
  refine ⟨_, eth_of_le rfl hinv.endOff (by simpa [← hlen] using h), ?_⟩
  exact {
    invoked := hinv.write _ _ _ _ _ _ _
    pc := rfl
    proto := ⟨_, rfl, hinv.field 12⟩
    pos := ⟨_, rfl, rfl⟩
    vdepth := ⟨0, rfl, rfl, Nat.le_refl _⟩ }

/-- One VLAN takes the walk a step on (R86). -/
theorem Walking.vlan {pr p : Nat} (h : Walking r u0 u c pr p) (hc : c.toNat ≤ 3) (unit : Nat) :
    ∃ v, vlan unit u = .ok v ∧ Walked r u0 v (c + 1) (unwrapTag r.bytes pr p) := by
  obtain ⟨q, hq, rfl⟩ := h.proto
  obtain ⟨o, ho, rfl⟩ := h.pos
  obtain ⟨d, hd, hcount, hdepth⟩ := h.vdepth
  have hend := h.invoked.endOff
  have hnext : (c + 1).toNat = c.toNat + 1 := by bv_omega
  by_cases htag : isVlanTpid q = true
  · rw [unwrapTag, if_pos (isVlanTpid_iff_toNat.mp htag), hlen]
    by_cases hle : o.toNat + 4 ≤ r.len.toNat
    · have hd3 : d ≠ 3 := by bv_omega
      rw [if_neg (Nat.not_lt.mpr hle)]
      refine ⟨_, vlan_of_le unit hq htag ho hend hle hd, ?_⟩
      rw [UnitState.incVdepth, if_neg hd3]
      exact {
        invoked := h.invoked.write _ _ _ _ _ _ _
        pc := congrArg (· + 1) h.pc
        proto := ⟨_, rfl, h.invoked.field _⟩
        pos := ⟨_, rfl, toNat_ofNat_of_le hle⟩
        vdepth := ⟨d + 1, rfl, by bv_omega, by bv_omega⟩ }
    · rw [if_pos (Nat.lt_of_not_le hle)]
      exact ⟨_, vlan_of_lt unit hq htag ho hend (Nat.lt_of_not_le hle), h.toAt.resolve _ _⟩
  · rw [unwrapTag, if_neg (isVlanTpid_iff_toNat.not.mp htag)]
    exact ⟨_, vlan_of_no_tag unit hq htag,
      { toAt := h.toAt.advance, proto := ⟨q, hq, rfl⟩, pos := ⟨o, ho, rfl⟩, vdepth := ⟨d, hd, hcount, by omega⟩ }⟩

/-- Within four steps the words CINIT, ETH, VLAN, VLAN bring a unit to the walk's result (R90). -/
theorem stepsTo_walked {s : State} {jp6 : Word} {rest : List Word} (hs : RunsAlone s (romWalk jp6 ++ rest)) :
    ∃ n v, n ≤ 4 ∧ StepsTo s n (u0.start r) v ∧ Walked r u0 v 4 (walk r.bytes) := by
  have hcinit := hs.stepsTo (u := u0.start r) (w := 0x1000) rfl rfl rfl (cinit_eq _)
  have hat : At r u0 (u0.start r).afterCinit 1 := ⟨Invoked.afterCinit r u0, rfl⟩
  by_cases hshort : r.bytes.length < 14
  · have heth := eth_of_lt (u := (u0.start r).afterCinit) rfl hat.invoked.endOff (by simpa [← hlen] using hshort)
    rw [walk, if_pos hshort]
    exact ⟨2, _, by decide, hcinit.trans (hat.stepsTo (w := 0x2000) hs rfl heth), hat.resolve _ _⟩
  · obtain ⟨v, heth, hv⟩ := eth_begins_walk (u0 := u0) hlen (Nat.not_lt.mp hshort)
    have hsteps := hcinit.trans (hat.stepsTo (w := 0x2000) hs rfl heth)
    obtain ⟨v', hvlan, hv'⟩ := hv.vlan hlen (by decide) s.turn
    have hsteps' := hsteps.trans (hv.toAt.stepsTo (w := 0x2100) hs rfl hvlan)
    rw [walk_eq_unwrapTag (Nat.not_lt.mp hshort)]
    generalize unwrapTag r.bytes (fieldAt r.bytes 12) 14 = w at hv'
    cases w with
    | none => exact ⟨3, v', by decide, hsteps', hv'⟩
    | some w =>
      have hv' : Walking r u0 v' 3 w.1 w.2 := hv'
      obtain ⟨y, hvlan', hy⟩ := hv'.vlan hlen (by decide) s.turn
      exact ⟨4, y, by decide, hsteps'.trans (hv'.toAt.stepsTo (w := 0x2100) hs rfl hvlan'), hy⟩

end
end

end Sys2Proof.Machine
end

section
/-! PROOFS. The statement of 42_classifier.md about runs: ROM 0 answers the closed form of R98. -/

namespace Sys2Proof.Machine

open Sys2Proof.Safety (byteAt fieldAt walk dnsAt dropFilterDrops)

/-! ### The closed form, path by path (R98) -/

/-- Where rule 3 looks for the UDP header of an IPv4 packet (R95). -/
def udpHeaderAt (cfg : BitVec 4) (f : List Byte) (l : Nat) : Nat :=
  if cfg.getLsbD 1 then l + 20 else l + 4 * (byteAt f l % 16)

/-- Rule 3 drops the IPv4 packet at l. -/
def dropsByPort4 (cfg : BitVec 4) (f : List Byte) (l : Nat) : Prop :=
  (byteAt f (l + 9) = 17 ∧ (cfg.getLsbD 1 = true ∨ 5 ≤ byteAt f l % 16)) ∧
  udpHeaderAt cfg f l + 8 ≤ f.length ∧ dnsAt f (udpHeaderAt cfg f l)

/-- One of the rules drops the IPv4 packet at l. -/
def drops4 (cfg : BitVec 4) (f : List Byte) (l : Nat) : Prop :=
  l + 20 ≤ f.length ∧
  ((byteAt f (l + (16 + 3 * (cfg.getLsbD 0).toNat)) = 0 ∨ byteAt f (l + (16 + 3 * (cfg.getLsbD 0).toNat)) = 255) ∨
   (byteAt f (l + 6) / 32 % 2 = 1 ∨ fieldAt f (l + 6) % 8192 ≠ 0) ∨ dropsByPort4 cfg f l)

/-- Rule 3 drops the IPv6 packet at l. -/
def drops6 (f : List Byte) (l : Nat) : Prop :=
  l + 40 ≤ f.length ∧ byteAt f (l + 6) = 17 ∧ l + 40 + 8 ≤ f.length ∧ dnsAt f (l + 40)

section
variable {cfg : BitVec 4} {f : List Byte} {pr : BitVec 16} {l : Nat}

theorem dropFilterDrops_of_ipv4 (h : walk f = some ((0x0800 : BitVec 16).toNat, l)) :
    dropFilterDrops cfg f ↔ drops4 cfg f l := by
  simp [dropFilterDrops, h, drops4, dropsByPort4, udpHeaderAt, Nat.add_assoc, and_assoc]

theorem dropFilterDrops_of_ipv6 (h : walk f = some ((0x86DD : BitVec 16).toNat, l)) :
    dropFilterDrops cfg f ↔ drops6 f l := by
  have hwhole : l + 40 ≤ f.length ∧ byteAt f (l + 6) = 17 ∧ l + 48 ≤ f.length ↔
      l + 48 ≤ f.length ∧ byteAt f (l + 6) = 17 := by omega
  simpa [dropFilterDrops, h, drops6, and_assoc] using (and_congr_left' (c := dnsAt f (l + 40)) hwhole).symm

theorem dropFilterDrops_of_unsupported (h : walk f = some (pr.toNat, l)) (h4 : pr ≠ 0x0800) (h6 : pr ≠ 0x86DD) :
    dropFilterDrops cfg f ↔ False := by
  have h4 : ¬ pr.toNat = 0x0800 := BitVec.toNat_ne.mp h4
  have h6 : ¬ pr.toNat = 0x86DD := BitVec.toNat_ne.mp h6
  simp [dropFilterDrops, h, h4, h6]

theorem dstOctetOffset_eq (cfg : BitVec 4) : dstOctetOffset cfg = 16 + 3 * (cfg.getLsbD 0).toNat := by
  unfold dstOctetOffset; cases cfg.getLsbD 0 <;> rfl

end

/-! ### The end of an invocation -/

/-- The invocation has ended with action a, no target and the frame as it came, counted once (R120, R126). -/
def Responded (r : Request) (u0 : UnitState) (a : BitVec 3) (y : UnitState) : Prop :=
  y.st = .idle ∧ y.responses = ⟨a, none, r.bytes⟩ :: u0.responses ∧ y.ct = u0.ct.count a.toNat r.len

/-- Within k steps the unit responds DROP if P holds, and PASS if not. -/
def Gives (s : State) (r : Request) (u0 : UnitState) (P : Prop) (k : Nat) (u : UnitState) : Prop :=
  ∃ n y a, n ≤ k ∧ StepsTo s n u y ∧ (P ∧ a = actDrop ∨ ¬ P ∧ a = actPass) ∧ Responded r u0 a y

section
variable {s : State} {r : Request} {u0 u v : UnitState} {c : BitVec 6} {P Q : Prop} {k n : Nat}

theorem Gives.mono (h : Gives s r u0 P k u) (hk : k ≤ n) : Gives s r u0 P n u := by
  obtain ⟨m, y, a, hm, hsteps, hy⟩ := h
  exact ⟨m, y, a, hm.trans hk, hsteps, hy⟩

theorem Gives.congr (h : Gives s r u0 P k u) (hPQ : P ↔ Q) : Gives s r u0 Q k u := propext hPQ ▸ h

theorem Gives.after (h : Gives s r u0 P k v) (hsteps : StepsTo s n u v) : Gives s r u0 P (n + k) u := by
  obtain ⟨m, y, a, hm, hsteps', hy⟩ := h
  exact ⟨n + m, y, a, Nat.add_le_add_left hm n, hsteps.trans hsteps', hy⟩

section
variable (hs : RunsAlone s romDropFilter) (hlen : r.bytes.length = r.len.toNat)
include hs hlen

/-- FIN responds what was resolved (R120). -/
theorem Resolved.gives {a : BitVec 3} (h : Resolved r u0 u a) (ha : P ∧ a = actDrop ∨ ¬ P ∧ a = actPass) :
    Gives s r u0 P 1 u := by
  have hknown : a.toNat < 5 ∧ a ≠ actRedirect := by obtain ⟨-, rfl⟩ | ⟨-, rfl⟩ := ha <;> decide
  have hfin := fin_of_no_target h.act h.invoked.endOff hknown.1 hknown.2
  refine ⟨1, _, a, Nat.le_refl 1, h.toAt.stepsTo hs (w := 0x5000) rfl hfin, ha, rfl, ?_, ?_⟩
  · simp [h.invoked.frame, h.invoked.len, h.invoked.responses, ← hlen]
  · simp [h.invoked.ct]

section
variable {w : Word} (hat : At r u0 u c) (hw : romDropFilter.getD c.toNat 0 = w)
include hat hw

theorem At.gives_of_resolve {a : BitVec 3} {cause : BitVec 4}
    (h : unitMeaning (decode w) s.cfg s.turn u = .ok (u.resolve a cause)) (ha : P ∧ a = actDrop ∨ ¬ P ∧ a = actPass) :
    Gives s r u0 P 2 u :=
  ((hat.resolve a cause).gives hs hlen ha).after (hat.stepsTo hs hw h)

/-- A micro-operation that resolves PASS unless P. -/
theorem At.gives_and (hyes : P → ∃ v, unitMeaning (decode w) s.cfg s.turn u = .ok v ∧ Gives s r u0 Q (k + 1) v)
    (hno : ¬ P → ∃ cause, unitMeaning (decode w) s.cfg s.turn u = .ok (u.resolve actPass cause)) :
    Gives s r u0 (P ∧ Q) (k + 2) u := by
  by_cases hP : P
  · obtain ⟨v, h, hv⟩ := hyes hP
    exact ((hv.after (hat.stepsTo hs hw h)).mono (by omega)).congr (and_iff_right hP).symm
  · obtain ⟨cause, h⟩ := hno hP
    exact (hat.gives_of_resolve hs hlen hw h (.inr ⟨fun hPQ => hP hPQ.1, rfl⟩)).mono (by omega)

/-- A micro-operation that resolves DROP if P. -/
theorem At.gives_or {cause : BitVec 4} {b : Prop} [Decidable b]
    (h : unitMeaning (decode w) s.cfg s.turn u = .ok (if b then u.resolve actDrop cause else u.advance))
    (hb : b ↔ P) (hno : Gives s r u0 Q (k + 1) u.advance) : Gives s r u0 (P ∨ Q) (k + 2) u := by
  by_cases hP : P
  · rw [if_pos (hb.mpr hP)] at h
    exact (hat.gives_of_resolve hs hlen hw h (.inl ⟨.inl hP, rfl⟩)).mono (by omega)
  · rw [if_neg (hb.not.mpr hP)] at h
    exact ((hno.after (hat.stepsTo hs hw h)).mono (by omega)).congr (or_iff_right hP).symm

/-- CHK passes a frame that ends before the bytes it checks for (R80). -/
theorem At.gives_chk {m : BitVec 8} {p : Offset} (hdecode : decode w = .chk m) (hp : u.pos = some p)
    (h : p.toNat + m.toNat ≤ r.bytes.length → Gives s r u0 Q (k + 1) u.advance) :
    Gives s r u0 (p.toNat + m.toNat ≤ r.bytes.length ∧ Q) (k + 2) u := by
  have he := hat.invoked.endOff
  rw [hlen] at h ⊢
  refine hat.gives_and hs hlen hw (fun hle => ⟨_, ?_, h hle⟩) fun hlt => ⟨causeTrunc, ?_⟩ <;> rw [hdecode]
  · exact chk_of_le hp he hle
  · exact chk_of_lt hp he (Nat.lt_of_not_le hlt)

end

/-! ### The two paths of ROM 0 -/

/-- CHK 8 and CUDP, at 0B and again at 10: rule 3's second half, and rule 4 (R97). -/
theorem At.gives_udp {o : Offset} {p : Nat} (hat : At r u0 u c) (hchk : romDropFilter.getD c.toNat 0 = 0x1108)
    (hcudp : romDropFilter.getD (c + 1).toNat 0 = 0x3400) (hpos : u.pos = some o) (hp : o.toNat = p) :
    Gives s r u0 (p + 8 ≤ r.bytes.length ∧ dnsAt r.bytes p) 3 u := by
  subst hp
  refine hat.gives_chk hs hlen hchk (m := 8) rfl hpos fun hle => ?_
  have hle : o.toNat + 8 ≤ r.len.toNat := hlen ▸ hle
  have hat := hat.advance
  have h := cudp_eq (u := u.advance) hpos hat.invoked.endOff (by omega)
  simp only [hat.invoked.byte] at h
  by_cases hdns : dnsAt r.bytes o.toNat
  · have hdrop := h.trans (congrArg Except.ok (if_pos (isDnsPort_iff.mpr hdns)))
    exact hat.gives_of_resolve hs hlen hcudp hdrop (.inl ⟨hdns, rfl⟩)
  · have hpass := h.trans (congrArg Except.ok (if_neg (isDnsPort_iff.not.mpr hdns)))
    exact hat.gives_of_resolve hs hlen hcudp hpass (.inr ⟨hdns, rfl⟩)

/-- C4L4 at 0A, on an IPv4 header that CHK 20 found whole (R95). -/
theorem At.gives_c4l4 {l : Offset} (hat : At r u0 u 0x0A) (hl : u.l3 = some l) (hle : l.toNat + 20 ≤ r.bytes.length)
    (hwalk : l.toNat ≤ 22) : Gives s r u0 (dropsByPort4 s.cfg r.bytes l.toNat) 4 u := by
  have he := hat.invoked.endOff
  rw [hlen] at hle
  refine hat.gives_and hs hlen (w := 0x3200) rfl (fun ⟨hudp, hmode⟩ => ?udp) fun hno => ?pass
  case udp =>
    have hc4l4 : c4l4 s.cfg s.turn u = .ok (u.setPos s.turn (udpHeaderAt s.cfg r.bytes l.toNat)).advance := by
      refine c4l4_of_udp hl he _ _ (by omega) (by rwa [hat.invoked.byte]) ?_
      rw [hat.invoked.byte, udpHeaderAt]
      cases hcfg : s.cfg.getLsbD 1 with
      | true => exact .inl ⟨rfl, if_pos rfl⟩
      | false => exact .inr ⟨rfl, hmode.resolve_left (ne_true_of_eq_false hcfg), if_neg Bool.false_ne_true⟩
    have hfits : udpHeaderAt s.cfg r.bytes l.toNat < 2 ^ 32 := by unfold udpHeaderAt; split <;> omega
    rw [UnitState.setPos, if_pos hfits] at hc4l4
    exact ⟨_, hc4l4, (hat.moveCursor _).gives_udp hs hlen rfl rfl rfl (Nat.mod_eq_of_lt hfits)⟩
  case pass =>
    by_cases hudp : byteAt r.bytes (l.toNat + 9) = 17
    · have hbad : s.cfg.getLsbD 1 = false ∧ byteAt r.bytes l.toNat % 16 < 5 := by
        simpa [hudp] using hno
      obtain ⟨hcfg, hihl⟩ := hbad
      rw [← hat.invoked.byte] at hudp hihl
      exact ⟨_, c4l4_of_bad_ihl hl he _ _ (by omega) hudp hcfg hihl⟩
    · exact ⟨_, c4l4_of_not_udp hl he _ _ (by omega) (by rwa [hat.invoked.byte])⟩

/-- The IPv4 path, from 07 (R92 to R95, R97). -/
theorem At.gives_ipv4 {l : Offset} (hat : At r u0 u 0x07) (hpos : u.pos = some l) (hl : u.l3 = some l)
    (hwalk : l.toNat ≤ 22) : Gives s r u0 (drops4 s.cfg r.bytes l.toNat) 7 u := by
  refine hat.gives_chk hs hlen (m := 20) (w := 0x1114) rfl rfl hpos fun hle => ?_
  have hle : l.toNat + 20 ≤ r.len.toNat := hlen ▸ hle
  have hoff : dstOctetOffset s.cfg ≤ 19 := by unfold dstOctetOffset; split <;> decide
  have hat8 := hat.advance
  have hat9 := hat8.advance
  have hatA := hat9.advance
  have hc4dst := c4dst_eq (u := u.advance) hl hat8.invoked.endOff s.cfg (by omega)
  refine hat8.gives_or hs hlen (w := 0x3000) rfl hc4dst ?octet ?_
  case octet => rw [isNetOrBroadcastOctet_iff, hat8.invoked.byte, dstOctetOffset_eq]
  have hc4frag := c4frag_eq (u := u.advance.advance) hl hat9.invoked.endOff (by omega)
  refine hat9.gives_or hs hlen (w := 0x3100) rfl hc4frag ?fragment ?_
  case fragment => rw [isFragment_iff, hat9.invoked.byte, hat9.invoked.byte, fieldAt]
  exact hatA.gives_c4l4 hs hlen hl (hlen ▸ hle) hwalk

/-- The IPv6 path, from 0D (R92, R96, R97). -/
theorem At.gives_ipv6 {l : Offset} (hat : At r u0 u 0x0D) (hpos : u.pos = some l) (hl : u.l3 = some l) :
    Gives s r u0 (drops6 r.bytes l.toNat) 6 u := by
  refine hat.gives_chk hs hlen (m := 40) (w := 0x1128) rfl rfl hpos fun hle => ?_
  have hle : l.toNat + 40 ≤ r.len.toNat := hlen ▸ hle
  have hatE := hat.advance
  have hatF := hatE.advance
  have hc6l4 := c6l4_eq (u := u.advance) hl hatE.invoked.endOff (by omega)
  rw [hatE.invoked.byte] at hc6l4
  refine hatE.gives_and hs hlen (w := 0x3300) rfl
    (fun hudp => ⟨_, hc6l4.trans (congrArg _ (if_neg (not_not.mpr hudp))), ?_⟩)
    fun hno => ⟨_, hc6l4.trans (congrArg _ (if_pos hno))⟩
  -- ADV 40 repeats the check of CHK 40, so it always moves pos.
  have hadv := adv_of_le (n := 40) (u := u.advance.advance) hpos hatF.invoked.endOff hle
  have hudp := (hatF.moveCursor (BitVec.ofNat 32 (l.toNat + 40))).gives_udp hs hlen rfl rfl rfl (toNat_ofNat_of_le hle)
  exact hudp.after (hatF.stepsTo hs (w := 0x1228) rfl hadv)

/-- From the end of the walk, at JP4 (R87 to R89). -/
theorem Walked.gives (h : Walked r u0 u 4 (walk r.bytes)) : Gives s r u0 (dropFilterDrops s.cfg r.bytes) 8 u := by
  cases hwalk : walk r.bytes with
  | none =>
    rw [hwalk] at h
    exact (Resolved.gives hs hlen h (.inr ⟨by rw [dropFilterDrops, hwalk]; exact id, rfl⟩)).mono (by decide)
  | some w =>
    rw [hwalk] at h
    obtain ⟨pr, p⟩ := w
    have h : Walking r u0 u 4 pr p := h
    obtain ⟨q, hq, rfl⟩ := h.proto
    obtain ⟨l, hpos, rfl⟩ := h.pos
    obtain ⟨d, -, hl, hd⟩ := h.vdepth
    have hd : d.toNat + 2 ≤ 4 := hd
    by_cases h4 : q = 0x0800
    · subst h4
      have hjp4 := h.toAt.stepsTo hs (w := 0x2207) rfl (branchOnProto_taken 0x07 hq hpos)
      have hipv4 := (h.toAt.branch l 0x07).gives_ipv4 hs hlen hpos rfl (by omega)
      exact (hipv4.after hjp4).congr (dropFilterDrops_of_ipv4 hwalk).symm
    have hjp4 := h.toAt.stepsTo hs (w := 0x2207) rfl (branchOnProto_not_taken 0x07 hq h4)
    have hat5 := h.toAt.advance
    by_cases h6 : q = 0x86DD
    · subst h6
      have hjp6 := hat5.stepsTo hs (w := 0x230D) rfl (branchOnProto_taken 0x0D hq hpos)
      have hipv6 := (hat5.branch l 0x0D).gives_ipv6 hs hlen hpos rfl
      exact (hipv6.after (hjp4.trans hjp6)).congr (dropFilterDrops_of_ipv6 hwalk).symm
    · have hjp6 := hat5.stepsTo hs (w := 0x230D) rfl (branchOnProto_not_taken 0x0D hq h6)
      have hunsup := hat5.advance.gives_of_resolve (P := False) hs hlen (w := 0x2400) rfl rfl (.inr ⟨id, rfl⟩)
      exact ((hunsup.after (hjp4.trans hjp6)).mono (by decide)).congr (dropFilterDrops_of_unsupported hwalk h4 h6).symm

end
end

/-- Settles O57: the walk takes at most four steps, and what follows it at most eight. -/
theorem dropFilterClosedForm : Obligations.DropFilterClosedForm := by
  unfold Obligations.DropFilterClosedForm
  intro s s1 r hag hprog hrom hsubmit
  obtain ⟨u, hu, -, hlen, -, -, rfl⟩ := State.submit_next hsubmit
  have hturn : r.unit < s.units.length := (List.getElem?_eq_some_iff.mp hu).1
  have hs : RunsAlone { s with turn := r.unit } romDropFilter :=
    ⟨hturn, hag, (if_pos hprog).trans (congrArg some hrom)⟩
  obtain ⟨n, v, hn, hsteps, hv⟩ := stepsTo_walked (u0 := u) hlen hs
  obtain ⟨m, y, a, hm, hsteps', ha, hst, hresp, hct⟩ := (hv.gives hs hlen).after hsteps
  have hrun := hsteps' 0
  rw [Nat.zero_add] at hrun
  exact ⟨u, y, m, _, a, hu, hm.trans (Nat.add_le_add_right hn 8), hrun, List.getElem?_set_self hturn, ha, hst, hresp, hct,
    fun v hne => List.getElem?_set_ne hne.symm⟩

end Sys2Proof.Machine
end

section
/-! PROOFS. The statements of 43_forwarder.md about one micro-operation: what TTL4, TTL6, Q4, Q6, FIB and FDISP do. -/

namespace Sys2Proof.Machine

/-! ### What each forwarder micro-operation answers -/

section
variable {u : UnitState} {l e : Offset} (hl : u.l3 = some l) (he : u.endOff = some e)
include hl he

theorem hopGuardAt_eq (k : Nat) (h : l.toNat + k + 1 ≤ e.toNat) :
    hopGuardAt k u =
      .ok (if (u.frame.read (l.toNat + k)).toNat ≤ 1 then u.resolve actPass causeTtlGuard else u.advance) := by
  rw [hopGuardAt, hl, readReg_some, bind_of_ok, UnitState.memRead_one he h, bind_of_ok, isHopExhausted, hopGuard]
  simp only [decide_eq_true_eq]
  exact (apply_ite Except.ok _ _ _).symm

theorem q4_eq (h : l.toNat + 20 ≤ e.toNat) : q4 u = .ok { u with q := some (queryAt4 u l.toNat) }.advance := by
  rw [q4, hl, readReg_some, bind_of_ok, UnitState.memRead_one he (by omega), bind_of_ok,
    UnitState.memRead_ok he (by omega), bind_of_ok, UnitState.memRead_one he (by omega), bind_of_ok,
    UnitState.memBytes_ok he (by omega), bind_of_ok, UnitState.memBytes_ok he (by omega)]
  rfl

theorem q6_eq (h : l.toNat + 40 ≤ e.toNat) : q6 u = .ok { u with q := some (queryAt6 u l.toNat) }.advance := by
  rw [q6, hl, readReg_some, bind_of_ok, UnitState.memRead_ok he (by omega), bind_of_ok,
    UnitState.memRead_ok he (by omega), bind_of_ok, UnitState.memRead_one he (by omega), bind_of_ok,
    UnitState.memBytes_ok he (by omega), bind_of_ok, UnitState.memBytes_ok he (by omega)]
  rfl

end

theorem fib_eq {u : UnitState} {q : Query} (unit : Nat) (hq : u.q = some q) :
    fib unit u = .ok { u.lookupAsked with r := some (u.lookupAnswer unit q) }.advance := by
  rw [fib, hq]
  rfl

section
variable {u : UnitState} {a : LookupResult} (ha : u.r = some a)
include ha

theorem fdisp_of_success (h : a.rc = 0) : fdisp u = .ok u.advance := by
  have hclass : lookupClass a.rc = .success := if_pos h
  simp [fdisp, ha, hclass]

theorem fdisp_of_hard (h : a.rc ≠ 0) (hle : a.rc.toNat ≤ 3) : fdisp u = .ok (u.resolve actDrop causeHard) := by
  have hclass : lookupClass a.rc = .hard := (if_neg h).trans (if_pos (by bv_omega))
  simp [fdisp, ha, hclass]

theorem fdisp_of_soft (h : 4 ≤ a.rc.toNat) : fdisp u = .ok (u.resolve actPass causeSoft) := by
  have hclass : lookupClass a.rc = .soft := (if_neg (by bv_omega)).trans (if_neg (by bv_omega))
  simp [fdisp, ha, hclass]

end

/-! ### The fields of a query -/

/-- FLOWINFO_MASK keeps the 28 low bits (R104). -/
theorem ofNat_and_flowinfoMask (v : Nat) : BitVec.ofNat 32 v &&& flowinfoMask = BitVec.ofNat 32 (v % 2 ^ 28) := by
  have hmask : flowinfoMask.toNat = 2 ^ 28 - 1 := rfl
  apply BitVec.eq_of_toNat_eq
  rw [BitVec.toNat_and, hmask, Nat.and_two_pow_sub_one_eq_mod, BitVec.toNat_ofNat, BitVec.toNat_ofNat]
  omega

/-! ### The statements -/

/-- Both outcomes of a micro-operation that guards the hop count at l3 + k (R101, R103). -/
theorem exec_hopGuard {i : Instr} {s : State} {u : UnitState} {l e : Offset} {k : Nat}
    (hi : unitMeaning i s.cfg s.turn = hopGuardAt k) (hu : s.cur = some u) (hl : u.l3 = some l) (he : u.endOff = some e)
    (h : l.toNat + k + 1 ≤ e.toNat) :
    ((u.frame.read (l.toNat + k)).toNat ≤ 1 →
      exec i s = .next (s.put { u with act := some 2, cause := some 10, pc := 0x3F })) ∧
    (1 < (u.frame.read (l.toNat + k)).toNat → exec i s = .next (s.put { u with pc := u.pc + 1 })) := by
  obtain ⟨pass, goesOn⟩ := exec_ite hu (hi ▸ hopGuardAt_eq hl he k h)
  exact ⟨pass, fun hlt => goesOn (Nat.not_le.mpr hlt)⟩

/-- Settles O31. -/
theorem ttl4GuardsHopCount : Obligations.Ttl4GuardsHopCount := by
  unfold Obligations.Ttl4GuardsHopCount
  exact ⟨rfl, fun s u l e hu hl he hle => exec_hopGuard (i := .ttl4) rfl hu hl he hle⟩

/-- Settles O32. -/
theorem ttl6GuardsHopCount : Obligations.Ttl6GuardsHopCount := by
  unfold Obligations.Ttl6GuardsHopCount
  exact ⟨rfl, fun s u l e hu hl he hle => exec_hopGuard (i := .ttl6) rfl hu hl he hle⟩

/-- Settles O33: the fields MemRead and MemBytes give are those of the frame's bytes. -/
theorem q4BuildsQuery : Obligations.Q4BuildsQuery := by
  unfold Obligations.Q4BuildsQuery
  refine ⟨rfl, fun s u l e tlen hu hl he hle htlen => ?_⟩
  have hlen : tlen = BitVec.ofNat 16 (beValue (u.frame.bytes (l.toNat + 2) 2)) :=
    BitVec.eq_of_toNat_eq (htlen.trans (toNat_ofNat_beValue_two _ _).symm)
  rw [exec_ok (i := .q4) hu (q4_eq hl he hle), queryAt4, ← hlen, BitVec.ofNat_toNat, BitVec.ofNat_toNat,
    BitVec.setWidth_eq, Memory.bytes_eq_map, Memory.bytes_eq_map]
  rfl

/-- Settles O34: the fields MemRead and MemBytes give are those of the frame's bytes, and the mask drops the version. -/
theorem q6BuildsQuery : Obligations.Q6BuildsQuery := by
  unfold Obligations.Q6BuildsQuery
  refine ⟨rfl, fun s u l e tos tlen hu hl he hle htos htlen => ?_⟩
  have hlen : tlen = BitVec.ofNat 16 (beValue (u.frame.bytes (l.toNat + 4) 2)) :=
    BitVec.eq_of_toNat_eq (htlen.trans (toNat_ofNat_beValue_two _ _).symm)
  have hflow : tos = BitVec.ofNat 32 (beValue (u.frame.bytes l.toNat 4)) &&& flowinfoMask := by
    apply BitVec.eq_of_toNat_eq
    rw [ofNat_and_flowinfoMask, BitVec.toNat_ofNat, htos, beValue_four]
    omega
  rw [exec_ok (i := .q6) hu (q6_eq hl he hle), queryAt6, ← hlen, ← hflow, BitVec.ofNat_toNat, BitVec.setWidth_eq,
    Memory.bytes_eq_map, Memory.bytes_eq_map]
  rfl

/-- Settles O35, by whether an answer stands ready. -/
theorem fibWritesAnyAnswer : Obligations.FibWritesAnyAnswer := by
  unfold Obligations.FibWritesAnyAnswer
  refine ⟨rfl, fun s u q hu hq => ⟨fun a rest hready => ?ready, fun hnone => ⟨u.lookupAnswer s.turn q, ?drawn⟩⟩⟩
  case ready =>
    rw [exec_ok (i := .fib) hu (fib_eq _ hq), UnitState.lookupAsked, UnitState.lookupAnswer, hready]
    rfl
  case drawn =>
    rw [exec_ok (i := .fib) hu (fib_eq _ hq), UnitState.lookupAsked, hnone]
    rfl

/-- Settles O36, by the class of the result code. -/
theorem fdispDispatchesOnResult : Obligations.FdispDispatchesOnResult := by
  unfold Obligations.FdispDispatchesOnResult
  refine ⟨rfl, fun s u a hu ha => ⟨fun h => ?success, fun ⟨hpos, hle⟩ => ?hard, fun h => ?soft⟩⟩
  case success => exact exec_ok hu (fdisp_of_success ha h)
  case hard => exact exec_ok hu (fdisp_of_hard ha (by bv_omega) hle)
  case soft => exact exec_ok hu (fdisp_of_soft ha h)

end Sys2Proof.Machine
end

section
/-! PROOFS. The statement of 43_forwarder.md about runs: ROM 1 answers the closed form of R107 and R115. -/

namespace Sys2Proof.Machine

open Sys2Proof.Safety (byteAt fieldAt walk slice queryOf forwardedByte forwarderLooksUp)

/-! ### The closed form, path by path (R100, R107) -/

/-- The bytes of the header a family's path checks for (R100). -/
def headerBytes : Family → BitVec 8
  | .ipv4 => 20
  | .ipv6 => 40

/-- The offset, within the header, of the hop count (R74, R75). -/
def hopOffset : Family → Nat
  | .ipv4 => 8
  | .ipv6 => 7

/-- The lookup a frame reaches with a header of the family at l. -/
def lookupAt (f : List Byte) (fam : Family) (l : Nat) : Option (Family × Nat) :=
  if l + (headerBytes fam).toNat ≤ f.length ∧ 1 < byteAt f (l + hopOffset fam) then some (fam, l) else none

section
variable {f : List Byte} {pr : BitVec 16} {l : Nat}

theorem forwarderLooksUp_of_truncated (h : walk f = none) : forwarderLooksUp f = none := by
  simp [forwarderLooksUp, h]

theorem forwarderLooksUp_of_ipv4 (h : walk f = some ((0x0800 : BitVec 16).toNat, l)) :
    forwarderLooksUp f = lookupAt f .ipv4 l := by
  simp [forwarderLooksUp, h, lookupAt, headerBytes, hopOffset]

theorem forwarderLooksUp_of_ipv6 (h : walk f = some ((0x86DD : BitVec 16).toNat, l)) :
    forwarderLooksUp f = lookupAt f .ipv6 l := by
  simp [forwarderLooksUp, h, lookupAt, headerBytes, hopOffset]

theorem forwarderLooksUp_of_unsupported (h : walk f = some (pr.toNat, l)) (h4 : pr ≠ 0x0800) (h6 : pr ≠ 0x86DD) :
    forwarderLooksUp f = none := by
  have h4 : ¬ pr.toNat = 0x0800 := BitVec.toNat_ne.mp h4
  have h6 : ¬ pr.toNat = 0x86DD := BitVec.toNat_ne.mp h6
  simp [forwarderLooksUp, h, h4, h6]

end

/-- REDIR's part of the response x, by what the device map answers (R114). -/
def EgressSelected (cfg : BitVec 4) (present : Bool) (oif : IfId) (x : Response) : Prop :=
  if cfg.getLsbD 3 = true ∧ present = false then x.out = 0 ∧ x.tgt = none else x.out = 4 ∧ x.tgt = some oif

/-- The response x carries the frame forwarded by the answer a, and REDIR's choice (R107, R115). -/
def Forwarded (cfg : BitVec 4) (f : List Byte) (fam : Family) (l : Nat) (a : LookupResult) (present : Bool)
    (x : Response) : Prop :=
  x.bytes.length = f.length ∧ (∀ i, i < x.bytes.length → byteAt x.bytes i = forwardedByte cfg f fam l a i) ∧
  EgressSelected cfg present a.oif x

/-- The response x to the lookup's answer a (R106, R107). -/
def LookupAnswered (cfg : BitVec 4) (f : List Byte) (fam : Family) (l : Nat) (a : LookupResult) (present : Bool)
    (x : Response) : Prop :=
  if a.rc = 0 then Forwarded cfg f fam l a present x
  else x.tgt = none ∧ x.bytes = f ∧ if a.rc.toNat ≤ 3 then x.out = 1 else x.out = 2

/-- The response x, and the unit y after it, to an invocation that reaches the lookup `look` (R107). -/
def ForwarderAnswers (s : State) (r : Request) (u0 : UnitState) (look : Option (Family × Nat)) (x : Response)
    (y : UnitState) : Prop :=
  match look with
  | none => x.out = 2 ∧ x.tgt = none ∧ x.bytes = r.bytes ∧ y.lookupAnswers = u0.lookupAnswers ∧ y.draws = u0.draws
  | some (fam, l) =>
    let ans := u0.lookupAnswer s.turn (queryOf r.bytes fam l r.iif)
    LookupAnswered s.cfg r.bytes fam l ans (u0.lookupAsked.devmapPresent s.turn ans.oif) x

/-! ### The rewrite of a frame (R109 to R113) -/

/-- The frame after DEC4 or DEC6, with a hop count that is not 0. -/
def decremented (cfg : BitVec 4) (m : Memory) (l : Nat) : Family → Memory
  | .ipv4 =>
    (m.writeBytes (l + 8) (beBytes 1 ((m.read (l + 8)).toNat - 1))).writeBytes (l + 10)
      (beBytes 2 (csumTtl cfg ((m.read (l + 10)).toNat * 256 + (m.read (l + 11)).toNat)))
  | .ipv6 => m.writeBytes (l + 7) (beBytes 1 ((m.read (l + 7)).toNat - 1))

/-- The frame after L2RW (R113). -/
def macsSubstituted (m : Memory) (a : LookupResult) : Memory :=
  (m.writeBytes 0 (beBytes 6 a.dmac.toNat)).writeBytes 6 (beBytes 6 a.smac.toNat)

theorem csumTtl_lt (cfg : BitVec 4) {c : Nat} (h : c < 2 ^ 16) : csumTtl cfg c < 2 ^ 16 := by
  unfold csumTtl
  split <;> dsimp only <;> omega

/-- A byte after a big-endian value of n bytes was written at o. -/
theorem Memory.toNat_read_writeBytes_beBytes (m : Memory) (o n v i : Nat) :
    ((m.writeBytes o (beBytes n v)).read i).toNat =
      if o ≤ i ∧ i < o + n then v / 256 ^ (n - 1 - (i - o)) % 256 else (m.read i).toNat := by
  rw [Memory.read_writeBytes, length_beBytes]
  split
  next h => rw [getD_beBytes _ _ _ (by omega), BitVec.toNat_ofNat]
  next => rfl

theorem Memory.toNat_read_writeBytes_one (m : Memory) (o i : Nat) {v : Nat} (hv : v < 256) :
    ((m.writeBytes o (beBytes 1 v)).read i).toNat = if i = o then v else (m.read i).toNat := by
  rw [Memory.toNat_read_writeBytes_beBytes]
  by_cases h : i = o
  · subst h
    simpa using hv
  · rw [if_neg (by omega), if_neg h]

theorem Memory.toNat_read_writeBytes_two (m : Memory) (o i : Nat) {v : Nat} (hv : v < 2 ^ 16) :
    ((m.writeBytes o (beBytes 2 v)).read i).toNat =
      if i = o then v / 256 else if i = o + 1 then v % 256 else (m.read i).toNat := by
  rw [Memory.toNat_read_writeBytes_beBytes]
  by_cases h : i = o
  · subst h
    simp
    omega
  · by_cases h' : i = o + 1
    · subst h'
      simp
    · rw [if_neg (by omega), if_neg h, if_neg h']

theorem byteAt_lt (f : List Byte) (i : Nat) : byteAt f i < 256 := (f.getD i 0).isLt

theorem fieldAt_lt (f : List Byte) (i : Nat) : fieldAt f i < 2 ^ 16 := by
  have hhigh := byteAt_lt f i
  have hlow := byteAt_lt f (i + 1)
  rw [fieldAt]
  omega

theorem toNat_read_ofBytes (f : List Byte) (i : Nat) : ((Memory.ofBytes f).read i).toNat = byteAt f i := by
  rw [Memory.read_ofBytes, byteAt]

theorem byteAt_sub_one_lt (f : List Byte) (i : Nat) : byteAt f i - 1 < 256 :=
  Nat.lt_of_le_of_lt (Nat.sub_le _ 1) (byteAt_lt f i)

/-- The bytes of a frame after DEC4 (R111). -/
theorem toNat_read_decremented_ipv4 (cfg : BitVec 4) (f : List Byte) (l i : Nat) :
    ((decremented cfg (Memory.ofBytes f) l .ipv4).read i).toNat =
      if i = l + 8 then byteAt f i - 1
      else if i = l + 10 then csumTtl cfg (fieldAt f (l + 10)) / 256
      else if i = l + 11 then csumTtl cfg (fieldAt f (l + 10)) % 256
      else byteAt f i := by
  have hcsum := csumTtl_lt cfg (fieldAt_lt f (l + 10))
  simp only [decremented, toNat_read_ofBytes]
  rw [← fieldAt, Memory.toNat_read_writeBytes_two _ _ _ hcsum,
    Memory.toNat_read_writeBytes_one _ _ _ (byteAt_sub_one_lt f _), toNat_read_ofBytes]
  by_cases hi : i = l + 8
  · subst hi
    simp
  · simp [hi]

/-- The bytes of a frame after DEC6 (R112). -/
theorem toNat_read_decremented_ipv6 (cfg : BitVec 4) (f : List Byte) (l i : Nat) :
    ((decremented cfg (Memory.ofBytes f) l .ipv6).read i).toNat = if i = l + 7 then byteAt f i - 1 else byteAt f i := by
  simp only [decremented, toNat_read_ofBytes]
  rw [Memory.toNat_read_writeBytes_one _ _ _ (byteAt_sub_one_lt f _), toNat_read_ofBytes]
  by_cases hi : i = l + 7
  · rw [if_pos hi, if_pos hi, hi]
  · rw [if_neg hi, if_neg hi]

theorem toNat_read_macsSubstituted (m : Memory) (a : LookupResult) (i : Nat) :
    ((macsSubstituted m a).read i).toNat =
      if i < 6 then a.dmac.toNat / 256 ^ (5 - i) % 256
      else if i < 12 then a.smac.toNat / 256 ^ (11 - i) % 256
      else (m.read i).toNat := by
  rw [macsSubstituted, Memory.toNat_read_writeBytes_beBytes, Memory.toNat_read_writeBytes_beBytes]
  by_cases h6 : i < 6
  · rw [if_neg (by omega), if_pos (by omega), if_pos h6, Nat.sub_zero]
  · by_cases h12 : i < 12
    · have hk : 6 - 1 - (i - 6) = 11 - i := by omega
      rw [if_pos (by omega), if_neg h6, if_pos h12, hk]
    · rw [if_neg (by omega), if_neg (by omega), if_neg h6, if_neg h12]

/-- The bytes of a frame after both rewrites are those of the forwarded one (R115). -/
theorem toNat_read_forwarded (cfg : BitVec 4) (f : List Byte) (l : Nat) (fam : Family) (a : LookupResult) (i : Nat) :
    ((macsSubstituted (decremented cfg (Memory.ofBytes f) l fam) a).read i).toNat = forwardedByte cfg f fam l a i := by
  rw [toNat_read_macsSubstituted]
  cases fam with
  | ipv4 => rw [toNat_read_decremented_ipv4, forwardedByte]
  | ipv6 => rw [toNat_read_decremented_ipv6, forwardedByte]

/-- A response with the bytes of the rewritten frame carries the forwarded one. -/
theorem forwarded_of_bytes {cfg : BitVec 4} {f : List Byte} {l : Nat} {fam : Family} {a : LookupResult} {present : Bool}
    {x : Response} (hegress : EgressSelected cfg present a.oif x)
    (hbytes : x.bytes = (macsSubstituted (decremented cfg (Memory.ofBytes f) l fam) a).bytes 0 f.length) :
    Forwarded cfg f fam l a present x := by
  rw [Forwarded, hbytes, Memory.length_bytes]
  refine ⟨rfl, fun i hi => ?_, hegress⟩
  rw [byteAt, Memory.getD_bytes _ _ _ _ hi, Nat.zero_add, toNat_read_forwarded]

/-! ### What each rewrite micro-operation answers -/

theorem UnitState.hopAsked_of_ne_zero (u : UnitState) {h : Nat} (hne : h ≠ 0) : u.hopAsked h = u := if_neg hne

theorem UnitState.hopDecremented_of_ne_zero (u : UnitState) (unit : Nat) {h : Nat} (hne : h ≠ 0) :
    u.hopDecremented unit h = h - 1 := if_neg hne

section
variable {u : UnitState} {l e : Offset}

theorem dec4_eq (cfg : BitVec 4) (unit : Nat) (hl : u.l3 = some l) (he : u.endOff = some e) (h : l.toNat + 12 ≤ e.toNat)
    (hhop : (u.frame.read (l.toNat + 8)).toNat ≠ 0) :
    dec4 cfg unit u = .ok { u with frame := decremented cfg u.frame l.toNat .ipv4 }.advance := by
  rw [dec4, readReg_eq_ok.mpr hl, bind_of_ok, UnitState.memRead_one he (by omega), bind_of_ok,
    UnitState.memRead_two he (by omega), bind_of_ok, UnitState.hopAsked_of_ne_zero _ hhop,
    UnitState.hopDecremented_of_ne_zero _ _ hhop, UnitState.memWrite_ok he _ (by omega), bind_of_ok,
    UnitState.memWrite_ok (by exact he) _ (by omega)]
  rfl

theorem dec6_eq (cfg : BitVec 4) (unit : Nat) (hl : u.l3 = some l) (he : u.endOff = some e) (h : l.toNat + 8 ≤ e.toNat)
    (hhop : (u.frame.read (l.toNat + 7)).toNat ≠ 0) :
    dec6 unit u = .ok { u with frame := decremented cfg u.frame l.toNat .ipv6 }.advance := by
  rw [dec6, readReg_eq_ok.mpr hl, bind_of_ok, UnitState.memRead_one he (by omega), bind_of_ok,
    UnitState.hopAsked_of_ne_zero _ hhop, UnitState.hopDecremented_of_ne_zero _ _ hhop,
    UnitState.memWrite_ok he _ (by omega)]
  rfl

theorem l2rw_eq {a : LookupResult} (ha : u.r = some a) (he : u.endOff = some e) (h : 12 ≤ e.toNat) :
    l2rw u = .ok { u with frame := macsSubstituted u.frame a }.advance := by
  rw [l2rw, readReg_eq_ok.mpr ha, bind_of_ok, UnitState.memWriteBytes_ok he (by rw [length_beBytes]; omega), bind_of_ok,
    UnitState.memWriteBytes_ok (by exact he) (by rw [length_beBytes]; omega)]
  rfl

theorem redir_eq {a : LookupResult} (cfg : BitVec 4) (unit : Nat) (ha : u.r = some a) :
    redir cfg unit u =
      .ok (if cfg.getLsbD 3 then
             if u.devmapPresent unit a.oif then u.devmapAsked.redirectTo a.oif
             else u.devmapAsked.resolve actAborted causeDevmapMiss
           else u.redirectTo a.oif) := by
  rw [redir, ha, readReg_some, bind_of_ok, devmapCheck]
  split
  · split <;> rfl
  · rfl

end

/-! ### The query of a frame (R102, R104) -/

theorem bytes_ofBytes_eq_slice {f : List Byte} {o n : Nat} (h : o + n ≤ f.length) :
    (Memory.ofBytes f).bytes o n = slice f o n := by
  refine List.ext_getElem (by simp [slice]; omega) fun k hk _ => ?_
  rw [Memory.length_bytes] at hk
  have hread := Memory.getD_bytes (Memory.ofBytes f) o n k hk
  rw [Memory.read_ofBytes] at hread
  simpa [slice, hk, show o + k < f.length by omega] using hread

section
variable {u : UnitState} {r : Request} {l : Nat} (hframe : u.frame = Memory.ofBytes r.bytes) (hiif : u.iif = r.iif)
include hframe hiif

theorem queryAt4_eq_queryOf (h : l + 20 ≤ r.bytes.length) : queryAt4 u l = queryOf r.bytes .ipv4 l r.iif := by
  rw [queryAt4, hframe, hiif, beValue_two, bytes_ofBytes_eq_slice (by omega), bytes_ofBytes_eq_slice (by omega)]
  simp only [toNat_read_ofBytes]
  rfl

theorem queryAt6_eq_queryOf (h : l + 40 ≤ r.bytes.length) : queryAt6 u l = queryOf r.bytes .ipv6 l r.iif := by
  have hfirst : beValue ((Memory.ofBytes r.bytes).bytes l 4) = fieldAt r.bytes l * 65536 + fieldAt r.bytes (l + 2) := by
    rw [beValue_four]
    simp only [toNat_read_ofBytes, fieldAt, Nat.add_assoc, Nat.reduceAdd]
    omega
  rw [queryAt6, hframe, hiif, beValue_two, hfirst, ofNat_and_flowinfoMask, bytes_ofBytes_eq_slice (by omega),
    bytes_ofBytes_eq_slice (by omega)]
  simp only [toNat_read_ofBytes]
  rfl

end

/-! ### The words of a family's path (R123) -/

/-- TTL4 or TTL6. -/
def hopGuardOp : Family → Instr
  | .ipv4 => .ttl4
  | .ipv6 => .ttl6

/-- Q4 or Q6. -/
def queryOp : Family → Instr
  | .ipv4 => .q4
  | .ipv6 => .q6

/-- DEC4 or DEC6. -/
def decrementOp : Family → Instr
  | .ipv4 => .dec4
  | .ipv6 => .dec6

/-- Where JP4 and JP6 lead. -/
def pathStart : Family → BitVec 6
  | .ipv4 => 0x07
  | .ipv6 => 0x0F

/-- ROM 1 holds these micro-operations from c on. -/
def RomHolds (c : BitVec 6) : List Instr → Prop
  | [] => True
  | i :: is => decode (romForwarder.getD c.toNat 0) = i ∧ RomHolds (c + 1) is

theorem romHolds_path (fam : Family) :
    RomHolds (pathStart fam)
      [.chk (headerBytes fam), hopGuardOp fam, queryOp fam, .fib, .fdisp, decrementOp fam, .l2rw, .redir] := by
  cases fam <;> exact ⟨rfl, rfl, rfl, rfl, rfl, rfl, rfl, rfl, trivial⟩

section
variable {u : UnitState} {l e : Offset} {fam : Family} (cfg : BitVec 4) (unit : Nat) (hl : u.l3 = some l)
  (he : u.endOff = some e) (hle : l.toNat + (headerBytes fam).toNat ≤ e.toNat)
include hl he hle

theorem hopGuardOp_eq :
    unitMeaning (hopGuardOp fam) cfg unit u =
      .ok (if (u.frame.read (l.toNat + hopOffset fam)).toNat ≤ 1 then u.resolve actPass causeTtlGuard
           else u.advance) := by
  cases fam with
  | ipv4 =>
    have hle : l.toNat + 20 ≤ e.toNat := hle
    exact hopGuardAt_eq hl he 8 (by omega)
  | ipv6 =>
    have hle : l.toNat + 40 ≤ e.toNat := hle
    exact hopGuardAt_eq hl he 7 (by omega)

theorem queryOp_eq {r : Request} (hframe : u.frame = Memory.ofBytes r.bytes) (hiif : u.iif = r.iif)
    (hlen : r.bytes.length = e.toNat) :
    unitMeaning (queryOp fam) cfg unit u =
      .ok { u with q := some (queryOf r.bytes fam l.toNat r.iif) }.advance := by
  cases fam with
  | ipv4 =>
    have hquery := queryAt4_eq_queryOf hframe hiif (hlen ▸ hle)
    exact hquery ▸ q4_eq hl he hle
  | ipv6 =>
    have hquery := queryAt6_eq_queryOf hframe hiif (hlen ▸ hle)
    exact hquery ▸ q6_eq hl he hle

theorem decrementOp_eq (hhop : (u.frame.read (l.toNat + hopOffset fam)).toNat ≠ 0) :
    unitMeaning (decrementOp fam) cfg unit u =
      .ok { u with frame := decremented cfg u.frame l.toNat fam }.advance := by
  cases fam with
  | ipv4 =>
    have hle : l.toNat + 20 ≤ e.toNat := hle
    exact dec4_eq cfg unit hl he (by omega) hhop
  | ipv6 =>
    have hle : l.toNat + 40 ≤ e.toNat := hle
    exact dec6_eq cfg unit hl he (by omega) hhop

end

/-! ### What the services answer -/

/-- The same answers stand ready for both units, and both have drawn as many (logs 11, 12, 20). -/
structure SameServices (u v : UnitState) : Prop where
  lookupAnswers : u.lookupAnswers = v.lookupAnswers
  devmapAnswers : u.devmapAnswers = v.devmapAnswers
  draws : u.draws = v.draws

section
variable {u v : UnitState} {unit : Nat} (h : SameServices u v)
include h

theorem SameServices.lookupAnswer (q : Query) : u.lookupAnswer unit q = v.lookupAnswer unit q := by
  rw [UnitState.lookupAnswer, UnitState.lookupAnswer, h.lookupAnswers, h.draws]

theorem SameServices.lookupAsked : SameServices u.lookupAsked v.lookupAsked := by
  rw [UnitState.lookupAsked, UnitState.lookupAsked, h.lookupAnswers]
  cases v.lookupAnswers with
  | nil => exact ⟨rfl, h.devmapAnswers, congrArg (· + 1) h.draws⟩
  | cons a rest => exact ⟨rfl, h.devmapAnswers, h.draws⟩

theorem SameServices.devmapPresent (oif : IfId) : u.devmapPresent unit oif = v.devmapPresent unit oif := by
  rw [UnitState.devmapPresent, UnitState.devmapPresent, h.devmapAnswers, h.draws]

end

/-! ### A unit on a family's path -/

/-- What FIN and its response depend on, within an invocation. -/
structure Running (r : Request) (u0 u : UnitState) (c : BitVec 6) : Prop where
  st : u.st = .run
  pc : u.pc = c
  endOff : u.endOff = some r.len
  len : u.len = r.len
  responses : u.responses = u0.responses
  ct : u.ct = u0.ct

section
variable {s : State} {r : Request} {u0 u v : UnitState} {c : BitVec 6} {k n : Nat} {P : Response → UnitState → Prop}

theorem Invoked.iif (h : Invoked r u0 u) : u.iif = r.iif := congrArg UnitState.iif h

theorem Invoked.sameServices (h : Invoked r u0 u) : SameServices u u0 := by
  rw [h]
  exact ⟨rfl, rfl, rfl⟩

theorem At.running (h : At r u0 u c) : Running r u0 u c :=
  ⟨h.invoked.st, h.pc, h.invoked.endOff, h.invoked.len, h.invoked.responses, h.invoked.ct⟩

theorem Running.advance (h : Running r u0 u c) : Running r u0 u.advance (c + 1) :=
  { h with pc := congrArg (· + 1) h.pc }

theorem Running.resolve (h : Running r u0 u c) (a : BitVec 3) (cause : BitVec 4) :
    Running r u0 (u.resolve a cause) finPc :=
  { h with pc := rfl }

theorem Running.lookupAsked (h : Running r u0 u c) : Running r u0 u.lookupAsked c := by
  unfold UnitState.lookupAsked
  split <;> exact { h with }

theorem Running.devmapAsked (h : Running r u0 u c) : Running r u0 u.devmapAsked c := by
  unfold UnitState.devmapAsked
  split <;> exact { h with }

/-- One step runs the micro-operation at pc. -/
theorem Running.stepsTo {i : Instr} (h : Running r u0 u c) (hs : RunsAlone s romForwarder)
    (hi : decode (romForwarder.getD c.toNat 0) = i) (hmeaning : unitMeaning i s.cfg s.turn u = .ok v) : StepsTo s 1 u v :=
  hs.stepsTo h.st h.pc rfl (hi ▸ hmeaning)

/-! ### The end of an invocation, with any action -/

theorem fin_of_target {a : BitVec 3} {e : Offset} {tgt : Option IfId} (ha : u.act = some a) (he : u.endOff = some e)
    (hknown : a.toNat < 5) (htgt : u.targetOut a = .ok tgt) :
    fin u = .ok ({ u with ct := u.ct.count a.toNat e }.respond a tgt) := by
  simp [fin, ha, he, actionMax, Nat.not_le.mpr hknown, htgt]

/-- Within k steps the unit has responded, once, with what P says, and counted it (R120, R126). -/
def Ends (s : State) (r : Request) (u0 : UnitState) (P : Response → UnitState → Prop) (k : Nat) (u : UnitState) : Prop :=
  ∃ n y x, n ≤ k ∧ StepsTo s n u y ∧ y.st = .idle ∧ y.responses = x :: u0.responses ∧
    y.ct = u0.ct.count x.out.toNat r.len ∧ P x y

theorem Ends.mono (h : Ends s r u0 P k u) (hk : k ≤ n) : Ends s r u0 P n u := by
  obtain ⟨m, y, x, hm, hy⟩ := h
  exact ⟨m, y, x, hm.trans hk, hy⟩

theorem Ends.imp {Q : Response → UnitState → Prop} (h : Ends s r u0 P k u) (hPQ : ∀ x y, P x y → Q x y) :
    Ends s r u0 Q k u := by
  obtain ⟨m, y, x, hm, hsteps, hst, hresp, hct, hP⟩ := h
  exact ⟨m, y, x, hm, hsteps, hst, hresp, hct, hPQ x y hP⟩

theorem Ends.after (h : Ends s r u0 P k v) (hsteps : StepsTo s n u v) : Ends s r u0 P (n + k) u := by
  obtain ⟨m, y, x, hm, hsteps', hy⟩ := h
  exact ⟨n + m, y, x, Nat.add_le_add_left hm n, hsteps.trans hsteps', hy⟩

section
variable (hs : RunsAlone s romForwarder)
include hs

/-- FIN responds what was resolved (R120). -/
theorem Running.ends_fin {a : BitVec 3} {tgt : Option IfId} (h : Running r u0 u finPc) (ha : u.act = some a)
    (hknown : a.toNat < 5) (htgt : u.targetOut a = .ok tgt)
    (hP : ∀ y : UnitState, y.lookupAnswers = u.lookupAnswers → y.draws = u.draws →
      P ⟨a, tgt, u.frame.bytes 0 r.len.toNat⟩ y) : Ends s r u0 P 1 u := by
  have hfin := fin_of_target ha h.endOff hknown htgt
  refine ⟨1, _, _, Nat.le_refl 1, h.stepsTo hs (i := .fin) rfl hfin, rfl, ?_, ?_, hP _ rfl rfl⟩
  · simp [h.len, h.responses]
  · simp [h.ct]

theorem Running.ends_resolve {i : Instr} {a : BitVec 3} {cause : BitVec 4} (h : Running r u0 u c)
    (hi : decode (romForwarder.getD c.toNat 0) = i) (hmeaning : unitMeaning i s.cfg s.turn u = .ok (u.resolve a cause))
    (hknown : a.toNat < 5) (hredir : a ≠ actRedirect)
    (hP : ∀ y : UnitState, y.lookupAnswers = u.lookupAnswers → y.draws = u.draws →
      P ⟨a, none, u.frame.bytes 0 r.len.toNat⟩ y) : Ends s r u0 P 2 u :=
  ((h.resolve a cause).ends_fin hs rfl hknown (if_neg hredir) hP).after (h.stepsTo hs hi hmeaning)

theorem Running.ends_redirectTo (h : Running r u0 u c) (oif : IfId)
    (hP : ∀ y, P ⟨4, some oif, u.frame.bytes 0 r.len.toNat⟩ y) : Ends s r u0 P 1 (u.redirectTo oif) :=
  Running.ends_fin hs (a := actRedirect) { h with pc := rfl } rfl (by decide) rfl fun y _ _ => hP y

/-- REDIR and FIN (R114). -/
theorem Running.ends_redir {a : LookupResult} (h : Running r u0 u c) (hrom : RomHolds c [.redir]) (ha : u.r = some a) :
    Ends s r u0 (fun x _ => x.bytes = u.frame.bytes 0 r.len.toNat ∧
      EgressSelected s.cfg (u.devmapPresent s.turn a.oif) a.oif x) 2 u := by
  have hstep := h.stepsTo hs hrom.1 (redir_eq s.cfg s.turn ha)
  cases hcheck : s.cfg.getLsbD 3 with
  | false =>
    rw [hcheck, if_neg Bool.false_ne_true] at hstep
    exact (h.ends_redirectTo hs a.oif fun _ => ⟨rfl, by rw [EgressSelected, hcheck]; simp⟩).after hstep
  | true =>
    rw [hcheck, if_pos rfl] at hstep
    cases hpresent : u.devmapPresent s.turn a.oif with
    | true =>
      rw [hpresent, if_pos rfl] at hstep
      exact (h.devmapAsked.ends_redirectTo hs a.oif fun _ => ⟨by simp, by simp [EgressSelected]⟩).after hstep
    | false =>
      rw [hpresent, if_neg Bool.false_ne_true] at hstep
      have hresolved := h.devmapAsked.resolve actAborted causeDevmapMiss
      exact (hresolved.ends_fin hs rfl (by decide) rfl fun _ _ _ =>
        ⟨by simp, by simp [EgressSelected, hcheck, actAborted]⟩).after hstep

section
variable (hlen : r.bytes.length = r.len.toNat) {l : Offset} {fam : Family} (hl : u.l3 = some l)
  (hframe : u.frame = Memory.ofBytes r.bytes) (hle : l.toNat + (headerBytes fam).toNat ≤ r.len.toNat)
  (hhop : 1 < byteAt r.bytes (l.toNat + hopOffset fam))
include hlen hl hframe hle hhop

/-- The rewrite, from DEC4 or DEC6 (R107, R109). -/
theorem Running.ends_rewrite {a : LookupResult} (h : Running r u0 u c)
    (hrom : RomHolds c [decrementOp fam, .l2rw, .redir]) (ha : u.r = some a) :
    Ends s r u0 (fun x _ => Forwarded s.cfg r.bytes fam l.toNat a (u.devmapPresent s.turn a.oif) x) 4 u := by
  obtain ⟨hdec, hl2rw, hredir⟩ := hrom
  have hne : (u.frame.read (l.toNat + hopOffset fam)).toNat ≠ 0 := by
    rw [hframe, toNat_read_ofBytes]
    omega
  have h12 : 12 ≤ r.len.toNat := by cases fam <;> exact le_trans (by decide) (le_trans (Nat.le_add_left _ _) hle)
  have hstep := h.stepsTo hs hdec (decrementOp_eq s.cfg s.turn hl h.endOff hle hne)
  have h1 : Running r u0 { u with frame := decremented s.cfg u.frame l.toNat fam }.advance (c + 1) :=
    { h with pc := congrArg (· + 1) h.pc }
  have hstep' := h1.stepsTo hs hl2rw (l2rw_eq ha h1.endOff h12)
  have h2 : Running r u0 { u with frame := macsSubstituted (decremented s.cfg u.frame l.toNat fam) a,
                                  pc := u.pc + 1 + 1 } (c + 1 + 1) :=
    { h with pc := congrArg (· + 1 + 1) h.pc }
  refine ((h2.ends_redir hs hredir ha).after (hstep.trans hstep')).imp fun x y hx => ?_
  obtain ⟨hbytes, hegress⟩ := hx
  exact forwarded_of_bytes hegress (by rw [hbytes, hlen, hframe])

/-- The lookup and its dispatch, from FIB (R105 to R107). -/
theorem Running.ends_lookup {q : Query} (h : Running r u0 u c)
    (hrom : RomHolds c [.fib, .fdisp, decrementOp fam, .l2rw, .redir]) (hq : u.q = some q) (hserv : SameServices u u0) :
    Ends s r u0 (fun x _ => LookupAnswered s.cfg r.bytes fam l.toNat (u0.lookupAnswer s.turn q)
      (u0.lookupAsked.devmapPresent s.turn (u0.lookupAnswer s.turn q).oif) x) 6 u := by
  obtain ⟨hfib, hfdisp, hrewrite⟩ := hrom
  have hstep := h.stepsTo hs hfib (fib_eq s.turn hq)
  rw [← hserv.lookupAnswer, ← hserv.lookupAsked.devmapPresent]
  generalize u.lookupAnswer s.turn q = a at hstep ⊢
  have h1 : Running r u0 { u.lookupAsked with r := some a }.advance (c + 1) :=
    { h.lookupAsked with pc := congrArg (· + 1) h.lookupAsked.pc }
  have hbytes : { u.lookupAsked with r := some a }.advance.frame.bytes 0 r.len.toNat = r.bytes := by
    simp [hframe, ← hlen]
  refine Ends.after (k := 5) ?_ hstep
  by_cases hsuccess : a.rc = 0
  · have hstep' := h1.stepsTo hs hfdisp (fdisp_of_success rfl hsuccess)
    have hforwarded := h1.advance.ends_rewrite hs hlen (by simpa using hl) (by simpa using hframe) hle hhop hrewrite rfl
    exact (hforwarded.after hstep').imp fun x _ hx => by rw [LookupAnswered, if_pos hsuccess]; exact hx
  · by_cases hhard : a.rc.toNat ≤ 3
    · have hdrop := fdisp_of_hard (u := { u.lookupAsked with r := some a }.advance) rfl hsuccess hhard
      refine (h1.ends_resolve hs hfdisp hdrop (by decide) (by decide) fun y _ _ => ?_).mono (by decide)
      rw [LookupAnswered, if_neg hsuccess, if_pos hhard]
      exact ⟨rfl, hbytes, rfl⟩
    · have hpass := fdisp_of_soft (u := { u.lookupAsked with r := some a }.advance) rfl (Nat.lt_of_not_le hhard)
      refine (h1.ends_resolve hs hfdisp hpass (by decide) (by decide) fun y _ _ => ?_).mono (by decide)
      rw [LookupAnswered, if_neg hsuccess, if_neg hhard]
      exact ⟨rfl, hbytes, rfl⟩

end

section
variable (hlen : r.bytes.length = r.len.toNat)
include hlen

/-- FIN responds PASS where no lookup was made. -/
theorem Resolved.ends_pass (h : Resolved r u0 u actPass) : Ends s r u0 (ForwarderAnswers s r u0 none) 1 u := by
  refine h.toAt.running.ends_fin hs h.act (by decide) rfl fun y hanswers hdraws => ⟨rfl, rfl, ?_, ?_, ?_⟩
  · rw [h.invoked.frame, ← hlen, Memory.bytes_ofBytes]
  · exact hanswers.trans h.invoked.sameServices.lookupAnswers
  · exact hdraws.trans h.invoked.sameServices.draws

theorem At.ends_pass {i : Instr} {cause : BitVec 4} (h : At r u0 u c) (hi : decode (romForwarder.getD c.toNat 0) = i)
    (hmeaning : unitMeaning i s.cfg s.turn u = .ok (u.resolve actPass cause)) :
    Ends s r u0 (ForwarderAnswers s r u0 none) 2 u :=
  ((h.resolve actPass cause).ends_pass hs hlen).after (h.running.stepsTo hs hi hmeaning)

/-- The lookup of a whole header that passed the guard, from Q4 or Q6. -/
theorem At.ends_query {l : Offset} {fam : Family} (h : At r u0 u c)
    (hrom : RomHolds c [queryOp fam, .fib, .fdisp, decrementOp fam, .l2rw, .redir]) (hl : u.l3 = some l)
    (hle : l.toNat + (headerBytes fam).toNat ≤ r.len.toNat) (hhop : 1 < byteAt r.bytes (l.toNat + hopOffset fam)) :
    Ends s r u0 (ForwarderAnswers s r u0 (some (fam, l.toNat))) 7 u := by
  obtain ⟨hquery, hlookup⟩ := hrom
  have hinv := h.invoked
  have hstep := h.running.stepsTo hs hquery
    (queryOp_eq s.cfg s.turn hl hinv.endOff hle hinv.frame hinv.iif hlen)
  have h1 : Running r u0 { u with q := some (queryOf r.bytes fam l.toNat r.iif) }.advance (c + 1) :=
    { h.running with pc := congrArg (· + 1) h.pc }
  have hends := Running.ends_lookup (u := { u with q := some (queryOf r.bytes fam l.toNat r.iif) }.advance) hs hlen hl
    hinv.frame hle hhop h1 hlookup rfl { hinv.sameServices with }
  exact hends.after hstep

/-- The path of a family, from its CHK (R100 to R107). -/
theorem At.ends_path {l : Offset} {fam : Family} (h : At r u0 u (pathStart fam)) (hpos : u.pos = some l)
    (hl : u.l3 = some l) : Ends s r u0 (ForwarderAnswers s r u0 (lookupAt r.bytes fam l.toNat)) 9 u := by
  obtain ⟨hchk, hguard, hquery⟩ := romHolds_path fam
  have he := h.invoked.endOff
  by_cases hle : l.toNat + (headerBytes fam).toNat ≤ r.len.toNat
  case neg =>
    rw [lookupAt, if_neg (by rw [hlen]; exact fun hwhole => hle hwhole.1)]
    exact (h.ends_pass hs hlen hchk (chk_of_lt hpos he (Nat.lt_of_not_le hle))).mono (by decide)
  have hstep := h.running.stepsTo hs hchk (chk_of_le hpos he hle)
  have h1 := h.advance
  have hmeaning := hopGuardOp_eq (u := u.advance) (fam := fam) s.cfg s.turn hl he hle
  rw [h1.invoked.byte] at hmeaning
  by_cases hhop : 1 < byteAt r.bytes (l.toNat + hopOffset fam)
  case neg =>
    rw [if_pos (Nat.le_of_not_lt hhop)] at hmeaning
    rw [lookupAt, if_neg fun hwhole => hhop hwhole.2]
    exact ((h1.ends_pass hs hlen hguard hmeaning).after hstep).mono (by decide)
  rw [if_neg (Nat.not_le.mpr hhop)] at hmeaning
  have hstep' := h1.running.stepsTo hs hguard hmeaning
  rw [lookupAt, if_pos ⟨hlen ▸ hle, hhop⟩]
  exact (h1.advance.ends_query hs hlen hquery hl hle hhop).after (hstep.trans hstep')

/-- From the end of the walk, at JP4 (R87 to R89). -/
theorem Walked.ends (h : Walked r u0 u 4 (walk r.bytes)) :
    Ends s r u0 (ForwarderAnswers s r u0 (forwarderLooksUp r.bytes)) 11 u := by
  cases hwalk : walk r.bytes with
  | none =>
    rw [hwalk] at h
    rw [forwarderLooksUp_of_truncated hwalk]
    exact (Resolved.ends_pass hs hlen h).mono (by decide)
  | some w =>
    rw [hwalk] at h
    obtain ⟨pr, p⟩ := w
    have h : Walking r u0 u 4 pr p := h
    obtain ⟨q, hq, rfl⟩ := h.proto
    obtain ⟨l, hpos, rfl⟩ := h.pos
    by_cases h4 : q = 0x0800
    · subst h4
      have hjp4 := h.toAt.stepsTo hs (w := 0x2207) rfl (branchOnProto_taken 0x07 hq hpos)
      rw [forwarderLooksUp_of_ipv4 hwalk]
      exact (((h.toAt.branch l 0x07).ends_path hs hlen (fam := .ipv4) hpos rfl).after hjp4).mono (by decide)
    have hjp4 := h.toAt.stepsTo hs (w := 0x2207) rfl (branchOnProto_not_taken 0x07 hq h4)
    have hat5 := h.toAt.advance
    by_cases h6 : q = 0x86DD
    · subst h6
      have hjp6 := hat5.stepsTo hs (w := 0x230F) rfl (branchOnProto_taken 0x0F hq hpos)
      rw [forwarderLooksUp_of_ipv6 hwalk]
      exact ((hat5.branch l 0x0F).ends_path hs hlen (fam := .ipv6) hpos rfl).after (hjp4.trans hjp6)
    · have hjp6 := hat5.stepsTo hs (w := 0x230F) rfl (branchOnProto_not_taken 0x0F hq h6)
      rw [forwarderLooksUp_of_unsupported hwalk h4 h6]
      exact ((hat5.advance.ends_pass hs hlen (i := .unsup) rfl rfl).after (hjp4.trans hjp6)).mono (by decide)

end
end
end

/-- Settles O58: the walk takes at most four steps, and what follows it at most eleven. -/
theorem forwarderClosedForm : Obligations.ForwarderClosedForm := by
  unfold Obligations.ForwarderClosedForm
  intro s s1 r hag hprog hrom hsubmit
  obtain ⟨u, hu, -, hlen, -, -, rfl⟩ := State.submit_next hsubmit
  have hturn : r.unit < s.units.length := (List.getElem?_eq_some_iff.mp hu).1
  have hs : RunsAlone { s with turn := r.unit } romForwarder := by
    refine ⟨hturn, hag, ?_⟩
    rw [State.selectedRom, if_neg (by simp [hprog]), if_pos hprog, hrom]
  obtain ⟨n, v, hn, hsteps, hv⟩ := stepsTo_walked (u0 := u) hlen hs
  obtain ⟨m, y, x, hm, hsteps', hst, hresp, hct, hanswers⟩ := (hv.ends hs hlen).after hsteps
  have hrun := hsteps' 0
  rw [Nat.zero_add] at hrun
  refine ⟨u, y, m, _, x.out, x.tgt, x.bytes, hu, hm.trans (Nat.add_le_add_right hn 11), hrun,
    List.getElem?_set_self hturn, hst, hresp, hct, fun v hne => List.getElem?_set_ne hne.symm, ?_⟩
  cases hlook : forwarderLooksUp r.bytes with
  | none => rw [hlook] at hanswers; exact hanswers
  | some look => rw [hlook] at hanswers; exact hanswers

end Sys2Proof.Machine
end

section
/-! PROOFS. The statements of 44_rewrite.md: what CsumTTL computes, what DEC4, DEC6, L2RW and REDIR do, and why DEC4 keeps a
correct header checksum correct. -/

namespace Sys2Proof.Machine

open Sys2Proof.Safety (onesSum headerSum)

/-! ### CsumTTL, by what its end-around carry adds (R110) -/

section
variable {cfg : BitVec 4} {c : Nat}

theorem csumTtl_of_eac (hcfg : cfg.getLsbD 2 = false) : csumTtl cfg c = (c + 256) % 2 ^ 16 + (c + 256) / 2 ^ 16 := by
  rw [csumTtl, csumFoldGe, hcfg, if_neg Bool.false_ne_true]

theorem csumTtl_of_eacGe (hcfg : cfg.getLsbD 2 = true) :
    csumTtl cfg c = (c + 256 + (if 0xFFFF ≤ c + 256 then 1 else 0)) % 2 ^ 16 := by
  rw [csumTtl, csumFoldGe, if_pos hcfg]

/-- Short of 0xFFFF neither variant carries. -/
theorem csumTtl_of_lt (h : c < 0xFEFF) : csumTtl cfg c = c + 256 := by
  cases hcfg : cfg.getLsbD 2 with
  | false => rw [csumTtl_of_eac hcfg]; omega
  | true => rw [csumTtl_of_eacGe hcfg, if_neg (by omega)]; omega

/-- Past 0xFFFF both carry. -/
theorem csumTtl_of_gt (h : 0xFEFF < c) (hc : c < 2 ^ 16) : csumTtl cfg c = c - 0xFEFF := by
  cases hcfg : cfg.getLsbD 2 with
  | false => rw [csumTtl_of_eac hcfg]; omega
  | true => rw [csumTtl_of_eacGe hcfg, if_pos (by omega)]; omega

/-- At 0xFFFF, one's complement's second zero, EAC_GE alone carries. -/
theorem csumTtl_at_negativeZero (cfg : BitVec 4) :
    csumTtl cfg 0xFEFF = if cfg.getLsbD 2 then 0x0000 else 0xFFFF := by
  cases hcfg : cfg.getLsbD 2 with
  | false => exact csumTtl_of_eac hcfg
  | true => exact csumTtl_of_eacGe hcfg

/-- Both variants add 0x0100 in one's complement, where 0x0000 and 0xFFFF are one number. -/
theorem csumTtl_mod (cfg : BitVec 4) (hc : c < 2 ^ 16) : csumTtl cfg c % 65535 = (c + 256) % 65535 := by
  obtain h | rfl | h := Nat.lt_trichotomy c 0xFEFF
  · rw [csumTtl_of_lt h]
  · rw [csumTtl_at_negativeZero]; split <;> rfl
  · rw [csumTtl_of_gt h hc]; omega

end

/-- Settles O37, by whether c + 0x0100 is below, at or past 0xFFFF. -/
theorem checksumDelta : Obligations.ChecksumDelta := by
  unfold Obligations.ChecksumDelta
  intro c g0 g1 hc h0 h1
  refine ⟨csumTtl_of_eac h0, csumTtl_of_eacGe h1, ?_⟩
  obtain h | rfl | h := Nat.lt_trichotomy c 0xFEFF
  · rw [csumTtl_of_lt h, csumTtl_of_lt h]
    omega
  · rw [csumTtl_at_negativeZero, csumTtl_at_negativeZero, h0, h1]
    decide
  · rw [csumTtl_of_gt h hc, csumTtl_of_gt h hc]
    omega

/-! ### The decrement of a hop count, 0 included (R111, R112) -/

theorem UnitState.hopDecremented_lt (u : UnitState) (unit : Nat) {h : Nat} (hh : h < 256) :
    u.hopDecremented unit h < 256 := by
  unfold UnitState.hopDecremented
  split
  · exact BitVec.isLt _
  · omega

/-- The decrement draws only where the hop count is 0 (log 13). -/
theorem UnitState.hopAsked_eq (u : UnitState) (h : Nat) :
    u.hopAsked h = { u with draws := if h = 0 then u.draws + 1 else u.draws } := by
  unfold UnitState.hopAsked
  split <;> rfl

/-- The frame after DEC4 wrote the hop count and the checksum (R111). -/
def hopAndChecksumWritten (m : Memory) (l hop csum : Nat) : Memory :=
  (m.writeBytes (l + 8) (beBytes 1 hop)).writeBytes (l + 10) (beBytes 2 csum)

theorem toNat_read_hopAndChecksumWritten (m : Memory) (l i : Nat) {hop csum : Nat} (hhop : hop < 256)
    (hcsum : csum < 2 ^ 16) :
    ((hopAndChecksumWritten m l hop csum).read i).toNat =
      if i = l + 10 then csum / 256 else if i = l + 11 then csum % 256
      else if i = l + 8 then hop else (m.read i).toNat := by
  rw [hopAndChecksumWritten, Memory.toNat_read_writeBytes_two _ _ _ hcsum, Memory.toNat_read_writeBytes_one _ _ _ hhop]

section
variable {u : UnitState} {l e : Offset} (hl : u.l3 = some l) (he : u.endOff = some e)
include hl he

theorem dec4_eq_of_anyHop (cfg : BitVec 4) (unit : Nat) {ttl c : Nat} (h : l.toNat + 12 ≤ e.toNat)
    (httl : ttl = (u.frame.read (l.toNat + 8)).toNat)
    (hc : c = (u.frame.read (l.toNat + 10)).toNat * 256 + (u.frame.read (l.toNat + 11)).toNat) :
    dec4 cfg unit u =
      .ok { u with frame := hopAndChecksumWritten u.frame l.toNat (u.hopDecremented unit ttl) (csumTtl cfg c)
                   pc := u.pc + 1
                   draws := if ttl = 0 then u.draws + 1 else u.draws } := by
  subst httl hc
  rw [dec4, readReg_eq_ok.mpr hl, bind_of_ok, UnitState.memRead_one he (by omega), bind_of_ok,
    UnitState.memRead_two he (by omega), bind_of_ok, UnitState.hopAsked_eq,
    UnitState.memWrite_ok (by exact he) _ (by omega), bind_of_ok, UnitState.memWrite_ok (by exact he) _ (by omega)]
  rfl

theorem dec6_eq_of_anyHop (unit : Nat) {hop : Nat} (h : l.toNat + 8 ≤ e.toNat)
    (hhop : hop = (u.frame.read (l.toNat + 7)).toNat) :
    dec6 unit u =
      .ok { u with frame := u.frame.writeBytes (l.toNat + 7) (beBytes 1 (u.hopDecremented unit hop))
                   pc := u.pc + 1
                   draws := if hop = 0 then u.draws + 1 else u.draws } := by
  subst hhop
  rw [dec6, readReg_eq_ok.mpr hl, bind_of_ok, UnitState.memRead_one he (by omega), bind_of_ok, UnitState.hopAsked_eq,
    UnitState.memWrite_ok (by exact he) _ (by omega)]
  rfl

end

theorem twoBytes_lt (hi lo : Byte) : hi.toNat * 256 + lo.toNat < 2 ^ 16 := by
  have hhi := hi.isLt
  have hlo := lo.isLt
  omega

/-- Settles O38: each byte of the frame written, and the write set of O51 for the others. -/
theorem dec4DecrementsTtl : Obligations.Dec4DecrementsTtl := by
  unfold Obligations.Dec4DecrementsTtl
  refine ⟨rfl, fun s u l e ttl c hu hl he hle httl hc => ?_⟩
  have hdec4 := dec4_eq_of_anyHop hl he s.cfg s.turn hle httl hc
  have hhop : u.hopDecremented s.turn ttl < 256 := u.hopDecremented_lt _ (httl ▸ BitVec.isLt _)
  have hcsum : csumTtl s.cfg c < 2 ^ 16 := csumTtl_lt _ (hc ▸ twoBytes_lt _ _)
  have hread := fun i => toNat_read_hopAndChecksumWritten u.frame l.toNat i hhop hcsum
  refine ⟨_, exec_ok (i := .dec4) hu hdec4, fun hpos => ?_, ?_, ?_, fun b => (dec4_writeSet hdec4).2 l b hl⟩
  · rw [hread, if_neg (by omega), if_neg (by omega), if_pos rfl]
    exact u.hopDecremented_of_ne_zero _ (Nat.pos_iff_ne_zero.mp hpos)
  · simp [hread]
  · simp [hread]

/-- Settles O39: the byte written, and the write set of O51 for the others. -/
theorem dec6DecrementsHopLimit : Obligations.Dec6DecrementsHopLimit := by
  unfold Obligations.Dec6DecrementsHopLimit
  refine ⟨rfl, fun s u l e hop hu hl he hle hhop => ?_⟩
  have hdec6 := dec6_eq_of_anyHop hl he s.turn hle hhop
  have hlt : u.hopDecremented s.turn hop < 256 := u.hopDecremented_lt _ (hhop ▸ BitVec.isLt _)
  refine ⟨_, exec_ok (i := .dec6) hu hdec6, fun hpos => ?_, fun b => (dec6_writeSet hdec6).2 l b hl⟩
  rw [Memory.toNat_read_writeBytes_one _ _ _ hlt, if_pos rfl,
    u.hopDecremented_of_ne_zero s.turn (Nat.pos_iff_ne_zero.mp hpos)]

/-! ### The MAC addresses (R113) -/

/-- A byte of a MAC, in the frame's arithmetic. -/
theorem toNat_extractLsb'_byte (mac : Mac) (k : Nat) : (mac.extractLsb' (8 * k) 8).toNat = mac.toNat / 256 ^ k % 256 := by
  rw [BitVec.extractLsb'_toNat, Nat.shiftRight_eq_div_pow, Nat.pow_mul]

/-- Settles O40: each byte of the frame written, and the write set of O51 for the others. -/
theorem l2rwSubstitutesMacs : Obligations.L2rwSubstitutesMacs := by
  unfold Obligations.L2rwSubstitutesMacs
  refine ⟨rfl, fun s u a e hu ha he hle => ?_⟩
  have hl2rw := l2rw_eq ha he hle
  refine ⟨_, exec_ok (i := .l2rw) hu hl2rw, fun i hi => ⟨?dmac, ?smac⟩, (l2rw_writeSet hl2rw).2⟩ <;>
    refine BitVec.eq_of_toNat_eq ?_ <;> rw [toNat_read_macsSubstituted, toNat_extractLsb'_byte]
  case dmac => rw [if_pos hi]
  case smac => rw [if_neg (by omega), if_pos (by omega), show 11 - (6 + i) = 5 - i by omega]

/-! ### The egress (R114) -/

section
variable {u : UnitState} {a : LookupResult} {cfg : BitVec 4} (unit : Nat) (ha : u.r = some a)
include ha

theorem redir_of_unchecked (hcfg : cfg.getLsbD 3 = false) : redir cfg unit u = .ok (u.redirectTo a.oif) := by
  rw [redir_eq cfg unit ha, hcfg, if_neg Bool.false_ne_true]

theorem redir_of_hit (hcfg : cfg.getLsbD 3 = true) (h : u.devmapPresent unit a.oif = true) :
    redir cfg unit u = .ok (u.devmapAsked.redirectTo a.oif) := by
  rw [redir_eq cfg unit ha, if_pos hcfg, if_pos h]

theorem redir_of_miss (hcfg : cfg.getLsbD 3 = true) (h : u.devmapPresent unit a.oif = false) :
    redir cfg unit u = .ok (u.devmapAsked.resolve actAborted causeDevmapMiss) := by
  rw [redir_eq cfg unit ha, if_pos hcfg, h, if_neg Bool.false_ne_true]

end

section
variable {u : UnitState}

theorem UnitState.devmapPresent_of_ready {b : Bool} {rest : List Bool} (h : u.devmapAnswers = b :: rest) (unit : Nat)
    (oif : IfId) : u.devmapPresent unit oif = b := by
  rw [UnitState.devmapPresent, h]

theorem UnitState.devmapAsked_of_ready {b : Bool} {rest : List Bool} (h : u.devmapAnswers = b :: rest) :
    u.devmapAsked = { u with devmapAnswers := rest } := by
  rw [UnitState.devmapAsked, h]

theorem UnitState.devmapAsked_of_none (h : u.devmapAnswers = []) : u.devmapAsked = { u with draws := u.draws + 1 } := by
  rw [UnitState.devmapAsked, h]

end

/-- Settles O41, by CFG[3] and by what the device map answers. -/
theorem redirSelectsEgress : Obligations.RedirSelectsEgress := by
  unfold Obligations.RedirSelectsEgress
  refine ⟨rfl, fun s u a hu ha => ⟨fun hcfg => ?unchecked, fun rest hcfg hready => ?hit, fun rest hcfg hready => ?miss,
    fun hcfg hnone => ?drawn⟩⟩
  case unchecked => exact exec_ok hu (redir_of_unchecked s.turn ha hcfg)
  case hit =>
    have hredir := redir_of_hit s.turn ha hcfg (u.devmapPresent_of_ready hready _ _)
    rw [u.devmapAsked_of_ready hready] at hredir
    exact exec_ok hu hredir
  case miss =>
    have hredir := redir_of_miss s.turn ha hcfg (u.devmapPresent_of_ready hready _ _)
    rw [u.devmapAsked_of_ready hready] at hredir
    exact exec_ok hu hredir
  case drawn =>
    cases hanswer : u.devmapPresent s.turn a.oif with
    | true =>
      have hredir := redir_of_hit s.turn ha hcfg hanswer
      rw [u.devmapAsked_of_none hnone] at hredir
      exact .inl (exec_ok hu hredir)
    | false =>
      have hredir := redir_of_miss s.turn ha hcfg hanswer
      rw [u.devmapAsked_of_none hnone] at hredir
      exact .inr (exec_ok hu hredir)

/-! ### The header checksum (R110, R115) -/

/-- In one's complement 0xFFFF is the zero that a sum of words that are not all 0 gives. -/
theorem onesSum_eq_allOnes_iff {n : Nat} : onesSum n = 0xFFFF ↔ 0 < n ∧ n % 65535 = 0 := by
  unfold onesSum
  split <;> omega

/-- What DEC4 leaves of the header's sum: all but the TTL and the checksum. -/
def untouchedSum (m : Memory) (l : Nat) : Nat :=
  (m.read (l + 9)).toNat +
    ([0, 1, 2, 3, 6, 7, 8, 9].map fun k => (m.read (l + 2 * k)).toNat * 256 + (m.read (l + 2 * k + 1)).toNat).sum

theorem headerSum_eq (m : Memory) (l : Nat) :
    headerSum m l =
      untouchedSum m l + (m.read (l + 8)).toNat * 256 + ((m.read (l + 10)).toNat * 256 + (m.read (l + 11)).toNat) := by
  simp +arith [headerSum, untouchedSum, List.range_succ]

theorem untouchedSum_congr {m m' : Memory} {l : Nat}
    (h : ∀ b, b ≠ l + 8 → b ≠ l + 10 → b ≠ l + 11 → m'.read b = m.read b) : untouchedSum m' l = untouchedSum m l := by
  simp (disch := omega) only [untouchedSum, List.map_cons, List.map_nil, h]

/-- Settles O60: what DEC4 takes from the TTL's word it adds to the checksum, so the sum is the same modulo 0xFFFF; the TTL
that is left keeps it from 0. -/
theorem checksumStaysCorrect : Obligations.ChecksumStaysCorrect := by
  unfold Obligations.ChecksumStaysCorrect
  intro s t u y l e hu hl he hle httl hsum hexec hy
  obtain ⟨m, hnext, hhop, hhigh, hlow, hframe⟩ := dec4DecrementsTtl.2 s u l e _ _ hu hl he (by omega) rfl rfl
  obtain rfl := Host.Outcome.next.inj (hexec.symm.trans hnext)
  obtain rfl := Option.some.inj ((State.cur_put hu _).symm.trans hy)
  have hhop := hhop (by omega)
  have hbefore := headerSum_eq u.frame l.toNat
  have hafter := headerSum_eq m l.toNat
  rw [untouchedSum_congr hframe] at hafter
  have hcsum := csumTtl_mod s.cfg (twoBytes_lt (u.frame.read (l.toNat + 10)) (u.frame.read (l.toNat + 11)))
  have hsame : headerSum m l.toNat % 65535 = headerSum u.frame l.toNat % 65535 := by omega
  have hpositive : 0 < headerSum m l.toNat := by omega
  rw [onesSum_eq_allOnes_iff] at hsum ⊢
  obtain ⟨-, hzero⟩ := hsum
  exact ⟨hpositive, hsame.trans hzero⟩

end Sys2Proof.Machine
end

section
/-! PROOFS. The statements of 45_sequencer.md about one move: which word a RUN unit executes, and what a request of the host does. -/

namespace Sys2Proof.Machine

/-! ### The fetch (R116, R117) -/

/-- The word at pc of the ROM PROG selects is the one fetched. -/
theorem State.fetch_of_rom {s : State} {u : UnitState} {w : Word}
    (h : s.prog = 1 ∧ s.rom0[u.pc.toNat]? = some w ∨ s.prog = 2 ∧ s.rom1[u.pc.toNat]? = some w) : s.fetch u = some w := by
  obtain ⟨hprog, hw⟩ | ⟨hprog, hw⟩ := h <;> simp [State.fetch, State.selectedRom, hprog, hw]

/-- Settles O5: a unit in RUN fetches, decodes and executes, whichever way its step came. -/
theorem stepRunsDecodedInstruction : Obligations.StepRunsDecodedInstruction := by
  unfold Obligations.StepRunsDecodedInstruction
  constructor
  · intro s u w hag hu hst hw
    rw [step_nil hag]
    exact unitStep_run hu hst (State.fetch_of_rom hw)
  · intro s v rest u w hag hu hst hw
    rw [step_cons hag]
    exact unitStep_run (s := { s with agenda := rest, turn := v }) hu hst (State.fetch_of_rom hw)

/-! ### A placed word (L2.8) -/

/-- A ROM image filled up to 64 words holds, at every pc, the word set there. -/
theorem getElem?_padded_set (rom : List Word) (pc : BitVec 6) (w : Word) :
    ((rom ++ List.replicate (64 - rom.length) 0).set pc.toNat w)[pc.toNat]? = some w := by
  have hpc : pc.toNat < 64 := pc.isLt
  exact List.getElem?_set_self (by simp; omega)

section
variable (s : State) (pc : BitVec 6) (w : Word)

/-- A placed word leaves all but PROG and the ROMs. -/
theorem State.placeWord_eq :
    s.placeWord pc w =
      { s with prog := (s.placeWord pc w).prog, rom0 := (s.placeWord pc w).rom0, rom1 := (s.placeWord pc w).rom1 } := by
  unfold State.placeWord; split <;> rfl

/-- The ROM PROG then selects holds the placed word at pc. -/
theorem State.placeWord_rom :
    (s.placeWord pc w).prog = 1 ∧ (s.placeWord pc w).rom0[pc.toNat]? = some w ∨
      (s.placeWord pc w).prog = 2 ∧ (s.placeWord pc w).rom1[pc.toNat]? = some w := by
  unfold State.placeWord
  split
  · exact .inr ⟨‹_›, getElem?_padded_set s.rom1 pc w⟩
  · exact .inl ⟨rfl, getElem?_padded_set s.rom0 pc w⟩

end

/-- The core with w placed at the pc of unit u, whose turn it is, and u in RUN: where withFetchWord's own move starts. -/
def State.placedAt (s : State) (u : UnitState) (w : Word) : State := (s.placeWord u.pc w).put { u with st := .run }

/-- The move withFetchWord puts at the head of the agenda is the unit's step from there. -/
theorem step_withFetchWord {s : State} {u : UnitState} (w : Word) (hu : s.cur = some u) :
    step (s.withFetchWord 16 w.toNat) = unitStep (s.placedAt u w) := by
  have hw : BitVec.ofNat 16 (w.toNat % 2 ^ 16) = w := by
    rw [Nat.mod_eq_of_lt w.isLt, BitVec.ofNat_toNat, BitVec.setWidth_eq]
  simp only [State.withFetchWord, hu, hw]
  rw [step_cons rfl, State.placedAt, State.placeWord_eq s u.pc w]
  rfl

/-- Settles O6: the unit is in RUN and fetches the word placed at its pc. -/
theorem placedWordRunsNext : Obligations.PlacedWordRunsNext := by
  unfold Obligations.PlacedWordRunsNext
  intro s u w hu
  have hplace := State.placeWord_eq s u.pc w
  have hcur : (s.placedAt u w).cur = some { u with st := .run } :=
    State.cur_put (u := u) (by rw [hplace]; exact hu) _
  refine ⟨s.placedAt u w, ?_, hcur, ?_, ?_, ?_, fun v hv => ?_⟩
  · rw [step_withFetchWord w hu]
    exact unitStep_run hcur rfl (State.fetch_of_rom (State.placeWord_rom s u.pc w))
  · rw [State.placedAt, State.put_agenda, hplace]
  · rw [State.placedAt, State.put_turn, hplace]
  · rw [State.placedAt, State.put_cfg, hplace]
  · rw [State.placedAt, hplace]
    exact State.put_other _ _ v hv

/-! ### A request of the host (R125, R135) -/

theorem State.submit_ok {s : State} {r : Request} {u : UnitState} (hu : s.units[r.unit]? = some u) (hst : u.st = .idle)
    (hprog : s.prog = 1 ∨ s.prog = 2) (hbytes : r.bytes.length = r.len.toNat) (hlen : r.len.toNat ≤ s.lenMax.toNat) :
    s.submit r = .next { s with units := s.units.set r.unit (u.start r), turn := r.unit } := by
  simpa [State.submit, hu, Nat.not_lt.mpr hlen, hbytes, hst] using or_iff_not_imp_left.mp hprog

/-- Settles O13: an accepted request answers the unit of `start`, whose frame reads back the bytes it was latched from. -/
theorem requestStartsInvocation : Obligations.RequestStartsInvocation := by
  unfold Obligations.RequestStartsInvocation
  intro s r rest u hag hu hst hprog hbytes hlen
  have hunit : r.unit < s.units.length := (List.getElem?_eq_some_iff.mp hu).1
  have hstep : step s = .next { s with agenda := rest, units := s.units.set r.unit (u.start r), turn := r.unit } := by
    rw [step_cons hag]
    exact State.submit_ok (s := { s with agenda := rest }) hu hst hprog hbytes hlen
  exact ⟨_, u.start r, hstep, List.getElem?_set_self hunit, rfl, rfl, rfl, rfl, fun i _ => Memory.read_ofBytes r.bytes i,
    rfl, rfl, rfl, rfl, rfl, rfl, rfl, rfl, rfl, rfl, rfl, rfl, rfl, fun v hv => List.getElem?_set_ne hv.symm⟩

/-- Settles O14: an accepted request meets every condition of R125 and R135. -/
theorem requestWithoutMove : Obligations.RequestWithoutMove := by
  unfold Obligations.RequestWithoutMove
  intro s r rest hag hbad t hstep
  rw [step_cons hag] at hstep
  obtain ⟨u, hu, hlen, hbytes, hprog, hst, -⟩ := State.submit_next (s := { s with agenda := rest }) hstep
  obtain hbusy | ⟨hprog1, hprog2⟩ | hwrong | hlong := hbad
  · exact hbusy u hu hst
  · exact hprog.elim hprog1 hprog2
  · exact hwrong hbytes
  · exact Nat.not_le.mpr hlong hlen

end Sys2Proof.Machine
end

section
/-! PROOFS. The statements of 45_sequencer.md about one micro-operation: where pc goes, and what FIN and ILL do. -/

namespace Sys2Proof.Machine

open Sys2Proof.Safety (producedAction)

/-! ### How a micro-operation hands on its unit (R118, R119) -/

/-- The ways in which a micro-operation i other than FIN leaves its unit u: it advances, perhaps having set act to PASS; it
resolves a produced action; or it takes its branch. -/
inductive Moved (i : Instr) (u : UnitState) : UnitState → Prop
  | advance {v : UnitState} (st : v.st = u.st) (pc : v.pc = u.pc) (act : v.act = u.act ∨ v.act = some actPass) :
      Moved i u v.advance
  | resolve {v : UnitState} {a : BitVec 3} {c : BitVec 4} (st : v.st = u.st) (act : producedAction a) :
      Moved i u (v.resolve a c)
  | branch {t : BitVec 6} {wanted : BitVec 16} {p : Offset} (op : i = .jp4 t ∧ wanted = etIpv4 ∨ i = .jp6 t ∧ wanted = etIpv6)
      (proto : u.proto = some wanted) : Moved i u { u with l3 := some p, pc := t }

theorem producedAction_aborted : producedAction actAborted := .inl rfl
theorem producedAction_drop : producedAction actDrop := .inr (.inl rfl)
theorem producedAction_pass : producedAction actPass := .inr (.inr (.inl rfl))
theorem producedAction_redirect : producedAction actRedirect := .inr (.inr (.inr rfl))

section
variable {i : Instr} {u v y : UnitState}

/-- A micro-operation that writes neither ST, pc nor act, and then advances. -/
theorem Moved.goesOn (st : v.st = u.st) (pc : v.pc = u.pc) (act : v.act = u.act) : Moved i u v.advance :=
  .advance st pc (.inl act)

theorem Moved.pass (c : BitVec 4) : Moved i u (u.resolve actPass c) := .resolve rfl producedAction_pass

theorem Moved.drop (c : BitVec 4) : Moved i u (u.resolve actDrop c) := .resolve rfl producedAction_drop

theorem Moved.of_branchOnProto {t : BitVec 6} {wanted : BitVec 16}
    (op : i = .jp4 t ∧ wanted = etIpv4 ∨ i = .jp6 t ∧ wanted = etIpv6) (h : branchOnProto wanted t u = .ok y) :
    Moved i u y := by
  obtain ⟨pr, hpr, ⟨-, rfl⟩ | ⟨rfl, p, -, rfl⟩⟩ := branchOnProto_ok h
  · exact .goesOn rfl rfl rfl
  · exact .branch op hpr

theorem Moved.of_hopGuardAt {k : Nat} (h : hopGuardAt k u = .ok y) : Moved i u y := by
  obtain ⟨l, e, -, -, -, ⟨-, rfl⟩ | ⟨-, rfl⟩⟩ := hopGuardAt_ok h
  · exact .pass _
  · exact .goesOn rfl rfl rfl

end

/-- Every micro-operation but FIN advances, resolves or branches. -/
theorem unitMeaning_moved {i : Instr} {cfg : BitVec 4} {unit : Nat} {u y : UnitState} (hfin : i ≠ .fin)
    (h : unitMeaning i cfg unit u = .ok y) : Moved i u y := by
  cases i with
  | ill => exact (ill_ok (u := u) h).elim
  | cinit => rw [cinit_ok h]; exact .advance rfl rfl (.inr rfl)
  | chk n =>
    obtain ⟨p, e, -, -, ⟨-, rfl⟩ | ⟨-, rfl⟩⟩ := chk_ok h
    · exact .goesOn rfl rfl rfl
    · exact .pass _
  | adv n =>
    obtain ⟨p, e, -, -, ⟨-, rfl⟩ | ⟨-, rfl⟩⟩ := adv_ok h
    · exact .goesOn rfl rfl rfl
    · exact .pass _
  | eth =>
    obtain ⟨p, e, -, -, ⟨-, rfl⟩ | ⟨-, rfl⟩⟩ := eth_ok h
    · exact .goesOn rfl rfl rfl
    · exact .pass _
  | vlan =>
    obtain ⟨pr, -, ⟨-, rfl⟩ | ⟨-, p, e, -, -, ⟨-, rfl⟩ | ⟨-, d, -, rfl⟩⟩⟩ := vlan_ok h
    · exact .goesOn rfl rfl rfl
    · exact .pass _
    · exact .goesOn (by simp) (by simp) (by simp)
  | jp4 t => exact .of_branchOnProto (.inl ⟨rfl, rfl⟩) h
  | jp6 t => exact .of_branchOnProto (.inr ⟨rfl, rfl⟩) h
  | unsup => rw [unsup_ok h]; exact .pass _
  | c4dst =>
    obtain ⟨l, e, -, -, -, ⟨-, rfl⟩ | ⟨-, rfl⟩⟩ := c4dst_ok h
    · exact .drop _
    · exact .goesOn rfl rfl rfl
  | c4frag =>
    obtain ⟨l, e, -, -, -, ⟨-, rfl⟩ | ⟨-, rfl⟩⟩ := c4frag_ok h
    · exact .drop _
    · exact .goesOn rfl rfl rfl
  | c4l4 =>
    obtain ⟨l, e, -, -, -, ⟨-, rfl⟩ | ⟨-, -, rfl⟩ | ⟨-, -, -, rfl⟩ | ⟨-, -, -, rfl⟩⟩ := c4l4_ok h
    · exact .pass _
    · exact .goesOn (by simp) (by simp) (by simp)
    · exact .pass _
    · exact .goesOn (by simp) (by simp) (by simp)
  | c6l4 =>
    obtain ⟨l, e, -, -, -, ⟨-, rfl⟩ | ⟨-, rfl⟩⟩ := c6l4_ok h
    · exact .pass _
    · exact .goesOn rfl rfl rfl
  | cudp =>
    obtain ⟨p, e, -, -, -, ⟨-, rfl⟩ | ⟨-, rfl⟩⟩ := cudp_ok h
    · exact .drop _
    · exact .pass _
  | ttl4 => exact .of_hopGuardAt h
  | q4 => obtain ⟨l, e, -, -, -, rfl⟩ := q4_ok h; exact .goesOn rfl rfl rfl
  | ttl6 => exact .of_hopGuardAt h
  | q6 => obtain ⟨l, e, -, -, -, rfl⟩ := q6_ok h; exact .goesOn rfl rfl rfl
  | fib => obtain ⟨q, -, rfl⟩ := fib_ok h; exact .goesOn (by simp) (by simp) (by simp)
  | fdisp =>
    obtain ⟨r, -, ⟨-, rfl⟩ | ⟨-, rfl⟩ | ⟨-, rfl⟩⟩ := fdisp_ok h
    · exact .goesOn rfl rfl rfl
    · exact .drop _
    · exact .pass _
  | dec4 => obtain ⟨l, e, -, -, -, rfl⟩ := dec4_ok h; exact .goesOn (by simp) (by simp) (by simp)
  | dec6 => obtain ⟨l, e, -, -, -, rfl⟩ := dec6_ok h; exact .goesOn (by simp) (by simp) (by simp)
  | l2rw => obtain ⟨r, e, -, -, -, rfl⟩ := l2rw_ok h; exact .goesOn rfl rfl rfl
  | redir =>
    obtain ⟨r, -, ⟨-, rfl⟩ | ⟨-, -, rfl⟩ | ⟨-, -, rfl⟩⟩ := redir_ok h
    · exact .resolve rfl producedAction_redirect
    · exact .resolve (by simp) producedAction_redirect
    · exact .resolve (by simp) producedAction_aborted
  | fin => exact absurd rfl hfin

/-- FIN makes its unit IDLE and leaves pc. -/
theorem fin_leaves_pc {u y : UnitState} (h : fin u = .ok y) : y.st = .idle ∧ y.pc = u.pc := by
  obtain ⟨a, -, ⟨-, rfl⟩ | ⟨-, e, tgt, -, -, rfl⟩⟩ := fin_ok h <;> exact ⟨rfl, rfl⟩

/-- Settles O52, by the way in which the micro-operation leaves its unit. -/
theorem programCounterUpdate : Obligations.ProgramCounterUpdate := by
  unfold Obligations.ProgramCounterUpdate
  intro i s t u y hu hst hexec hy
  obtain h | ⟨r, rfl⟩ := exec_next_cur hu hexec hy
  case inr => exact .inl ⟨⟨r, rfl⟩, rfl⟩
  by_cases hfin : i = .fin
  · subst hfin
    exact .inr (.inl ⟨rfl, fin_leaves_pc h⟩)
  refine .inr (.inr ⟨hfin, ?_⟩)
  cases unitMeaning_moved hfin h with
  | advance st pc _ => exact ⟨st.trans hst, .inl (by simp [pc, BitVec.toNat_add])⟩
  | resolve st _ => exact ⟨st.trans hst, .inr (.inl ⟨rfl, rfl, rfl⟩)⟩
  | branch op proto =>
    obtain ⟨rfl, rfl⟩ | ⟨rfl, rfl⟩ := op
    · exact ⟨hst, .inr (.inr (.inl ⟨_, rfl, rfl, proto⟩))⟩
    · exact ⟨hst, .inr (.inr (.inr ⟨_, rfl, rfl, proto⟩))⟩

/-! ### FIN (R120, R126) -/

/-- The fields of a record after one more packet, mod 2^64. -/
theorem Record.add_eq (c : Record) (len : Offset) :
    c.add len = ⟨BitVec.ofNat 64 (c.pk.toNat + 1), BitVec.ofNat 64 (c.bys.toNat + len.toNat)⟩ := by
  simp [Record.add, BitVec.ofNat_add, BitVec.ofNat_toNat]

/-- FIN outputs a target for REDIRECT only. -/
theorem UnitState.targetOut_eq {u : UnitState} {a : BitVec 3} {o : IfId} (h : a = actRedirect → u.tgt = some o) :
    u.targetOut a = .ok (if a = actRedirect then some o else none) := by
  by_cases ha : a = actRedirect <;> simp [UnitState.targetOut, ha, h]

/-- FIN responds ABORTED where the action is unknown, and counts nothing. -/
theorem fin_of_unknown {u : UnitState} {a : BitVec 3} (ha : u.act = some a) (h : 5 ≤ a.toNat) :
    fin u = .ok ({ u with cause := some causeBadact }.respond actAborted none) := by
  simp [fin, ha, actionMax, h]

/-- The frame bytes of a response, offset by offset. -/
theorem UnitState.respond_eq (u : UnitState) (a : BitVec 3) (t : Option IfId) :
    u.respond a t =
      { u with st := .idle, responses := ⟨a, t, (List.range u.len.toNat).map fun k => u.frame.read k⟩ :: u.responses } := by
  simp [UnitState.respond, Memory.bytes_eq_map]

/-- Settles O42, by whether the action is a known one. -/
theorem finCountsAndResponds : Obligations.FinCountsAndResponds := by
  unfold Obligations.FinCountsAndResponds
  refine ⟨rfl, fun s u a hu ha hunknown => ?unknown, fun s u a e o c hu ha hknown he ho hc => ?known⟩
  case unknown =>
    have hfin := fin_of_unknown ha hunknown
    rw [UnitState.respond_eq] at hfin
    exact exec_ok (i := .fin) hu hfin
  case known =>
    have hfin := fin_of_target ha he hknown (UnitState.targetOut_eq ho)
    rw [UnitState.respond_eq] at hfin
    refine ⟨u.ct.count a.toNat e, exec_ok (i := .fin) hu hfin, ?_, fun b hb => ?_⟩
    · rw [Slice.count_get?, if_pos rfl, hc, Option.map_some, Record.add_eq]
    · rw [Slice.count_get?, if_neg hb]

/-! ### ILL (R121) -/

/-- R66 lists every word with op 0x00. -/
theorem illegalWord_setWidth (imm : BitVec 8) : illegalWord (imm.setWidth 16) = true := by
  have hpack : imm.setWidth 16 = packWord 0 imm := by simp [packWord]
  simp [hpack, illegalWord]

/-- Settles O43: each word R66 lists executes as ILL, and ILL raises ILLEGAL on every unit. -/
theorem illEntersFault : Obligations.IllEntersFault := by
  unfold Obligations.IllEntersFault
  have listed : ∀ w, illegalWord w = true → decode w = .ill := fun w => (illegalWordsExecuteAsIll w).mpr
  exact ⟨rfl, fun imm => listed _ (illegalWord_setWidth imm), listed, fun s u hu => exec_raises (i := .ill) hu rfl⟩

end Sys2Proof.Machine
end

section
/-! PROOFS. The statement of 45_sequencer.md about every step: the frames stay canonical, `end` stays len, act stays an action some
rule produces, PROG stays legal, and the Counter Table keeps its account (R128). -/

namespace Sys2Proof.Machine

open Sys2Proof.Safety (Inv answered countersMatch producedAction recordCounts unitOk)

/-! ### The Counter Table's account (R128) -/

section
variable {u y : UnitState}

/-- The account speaks of the records and the responses only. -/
theorem countersMatch_congr (hct : y.ct = u.ct) (hresp : y.responses = u.responses) (h : countersMatch u) :
    countersMatch y := by
  simpa only [countersMatch, recordCounts, answered, hct, hresp] using h

theorem countersMatch_load (u : UnitState) : countersMatch u.load :=
  ⟨⟨rfl, rfl⟩, ⟨rfl, rfl⟩, ⟨rfl, rfl⟩, ⟨rfl, rfl⟩, rfl⟩

section
variable {x : Response} {a : BitVec 3} {c : Record}

/-- A response with another action leaves a record's account. -/
theorem recordCounts_other (hresp : y.responses = x :: u.responses) (hout : x.out ≠ a) (h : recordCounts u a c) :
    recordCounts y a c := by
  have hanswered : answered y a = answered u a := by simp [answered, hresp, hout]
  rwa [recordCounts, hanswered]

/-- A record that gains one packet of a response's length counts that response too. -/
theorem recordCounts_add {len : Offset} (hresp : y.responses = x :: u.responses) (hout : x.out = a)
    (hlen : x.bytes.length = len.toNat) (h : recordCounts u a c) : recordCounts y a (c.add len) := by
  have hanswered : answered y a = x :: answered u a := by simp [answered, hresp, hout]
  obtain ⟨hpk, hbys⟩ := h
  constructor
  · simp [hanswered, Record.add, hpk, BitVec.ofNat_add]
  · simp [hanswered, Record.add, hbys, hlen, BitVec.ofNat_add, BitVec.add_comm]

end

/-- The account, record by record. -/
theorem countersMatch_iff :
    countersMatch u ↔
      (∀ a, producedAction a → ∀ c, u.ct.get? a.toNat = some c → recordCounts u a c) ∧ u.ct.get? 3 = some Record.zero := by
  constructor
  · rintro ⟨haborted, hdrop, hpass, hredirect, htx⟩
    refine ⟨fun a ha c hc => ?_, congrArg some htx⟩
    obtain rfl | rfl | rfl | rfl := ha <;> obtain rfl := Option.some.inj hc
    · exact haborted
    · exact hdrop
    · exact hpass
    · exact hredirect
  · rintro ⟨hrecords, htx⟩
    exact ⟨hrecords 0 producedAction_aborted _ rfl, hrecords 1 producedAction_drop _ rfl, hrecords 2 producedAction_pass _ rfl,
      hrecords 4 producedAction_redirect _ rfl, Option.some.inj htx⟩

/-- Counting a response of len bytes in its action's record keeps the account. -/
theorem countersMatch_respond {a : BitVec 3} (ha : producedAction a) (tgt : Option IfId) (h : countersMatch u) :
    countersMatch ({ u with ct := u.ct.count a.toNat u.len }.respond a tgt) := by
  rw [countersMatch_iff] at h ⊢
  obtain ⟨hrecords, htx⟩ := h
  refine ⟨fun b hb c hc => ?_, ?_⟩
  · rw [UnitState.respond_ct, Slice.count_get?] at hc
    by_cases hba : b = a
    · subst hba
      rw [if_pos rfl, Option.map_eq_some_iff] at hc
      obtain ⟨c, hc, rfl⟩ := hc
      exact recordCounts_add rfl rfl (Memory.length_bytes ..) (hrecords b hb c hc)
    · rw [if_neg (BitVec.toNat_ne.mp hba)] at hc
      exact recordCounts_other rfl (Ne.symm hba) (hrecords b hb c hc)
  · have hreserved : 3 ≠ a.toNat := by obtain rfl | rfl | rfl | rfl := ha <;> decide
    rw [UnitState.respond_ct, Slice.count_get?, if_neg hreserved, htx]

/-- FIN counts what it responds. -/
theorem fin_keeps_account (hok : unitOk u) (hfin : fin u = .ok y) (h : countersMatch u) : countersMatch y := by
  obtain ⟨-, hend, hact⟩ := hok
  obtain ⟨a, ha, ⟨hunknown, -⟩ | ⟨-, e, tgt, he, -, rfl⟩⟩ := fin_ok hfin
  · obtain rfl | rfl | rfl | rfl := hact a ha <;> exact absurd hunknown (by decide)
  · obtain rfl := hend e he
    exact countersMatch_respond (hact a ha) tgt h

/-! ### One micro-operation -/

/-- Every micro-operation keeps the canonical form of the frame. -/
theorem unitMeaning_keeps_wf {i : Instr} {cfg : BitVec 4} {unit : Nat} (h : unitMeaning i cfg unit u = .ok y)
    (hwf : u.frame.wf = true) : y.frame.wf = true := by
  by_cases h4 : i = .dec4
  · subst h4
    obtain ⟨l, e, -, -, -, rfl⟩ := dec4_ok h
    exact Memory.wf_writeBytes _ _ _ (Memory.wf_writeBytes _ _ _ hwf)
  by_cases h6 : i = .dec6
  · subst h6
    obtain ⟨l, e, -, -, -, rfl⟩ := dec6_ok h
    exact Memory.wf_writeBytes _ _ _ hwf
  by_cases h2 : i = .l2rw
  · subst h2
    obtain ⟨r, e, -, -, -, rfl⟩ := l2rw_ok h
    exact Memory.wf_writeBytes _ _ _ (Memory.wf_writeBytes _ _ _ hwf)
  rwa [unitMeaning_keeps_frame h4 h6 h2 h]

/-- No micro-operation leaves in act an action that no rule produces. -/
theorem unitMeaning_keeps_act {i : Instr} {cfg : BitVec 4} {unit : Nat} (h : unitMeaning i cfg unit u = .ok y)
    (hact : ∀ a, u.act = some a → producedAction a) : ∀ a, y.act = some a → producedAction a := by
  by_cases hfin : i = .fin
  · subst hfin
    obtain ⟨a, -, ⟨-, rfl⟩ | ⟨-, e, tgt, -, -, rfl⟩⟩ := fin_ok h <;> exact hact
  intro a ha
  cases unitMeaning_moved hfin h with
  | advance _ _ act =>
    obtain act | act := act
    · exact hact a (act.symm.trans ha)
    · obtain rfl := Option.some.inj (act.symm.trans ha)
      exact producedAction_pass
  | resolve _ act =>
    obtain rfl := Option.some.inj ha
    exact act
  | branch _ _ => exact hact a ha

end

section
variable {i : Instr} {s t : State} {u y : UnitState}

/-- Of the registers Inv speaks of, len is never written, `end` by CINIT alone, and act with a produced action. -/
theorem exec_keeps_unitOk (hu : s.cur = some u) (hexec : exec i s = .next t) (hy : t.cur = some y) (hok : unitOk u) :
    unitOk y := by
  obtain ⟨hwf, hend, hact⟩ := hok
  obtain ⟨hlen, -, -, hendWritten, -⟩ := registersWrittenOnlyByNamedMicroOps i s t u y hu hexec hy
  obtain h | ⟨r, rfl⟩ := exec_next_cur hu hexec hy
  case inr => exact ⟨hwf, hend, hact⟩
  refine ⟨unitMeaning_keeps_wf h hwf, fun e he => ?_, unitMeaning_keeps_act h hact⟩
  obtain hsame | rfl := hendWritten
  · rw [hlen]
    exact hend e (hsame.symm.trans he)
  · obtain rfl := cinit_ok h
    exact (Option.some.inj he).symm

/-- FIN alone writes the Counter Table and the responses. -/
theorem exec_keeps_account (hu : s.cur = some u) (hexec : exec i s = .next t) (hy : t.cur = some y) (hok : unitOk u)
    (hcount : countersMatch u) : countersMatch y := by
  obtain ⟨-, -, -, -, -, -, -, -, -, -, -, -, -, haccount, -⟩ :=
    registersWrittenOnlyByNamedMicroOps i s t u y hu hexec hy
  obtain ⟨hct, hresp⟩ | rfl := haccount
  · exact countersMatch_congr hct hresp hcount
  obtain h | ⟨r, rfl⟩ := exec_next_cur hu hexec hy
  · exact fin_keeps_account hok h hcount
  · exact countersMatch_congr rfl rfl hcount

end

/-! ### One step -/

section
variable {s t : State}

/-- A RUN unit that goes on keeps the invariant: it has a program, so its account is kept. -/
theorem exec_keeps_inv {i : Instr} {u : UnitState} (hinv : Inv s) (hu : s.cur = some u) (hst : u.st = .run)
    (hexec : exec i s = .next t) : Inv t := by
  obtain ⟨hprog, hunits⟩ := hinv
  obtain ⟨hok, hrun, hcount⟩ := hunits u (State.mem_of_cur hu)
  obtain ⟨y, hy⟩ := exec_completes i hu
  obtain rfl := Host.Outcome.next.inj (hexec.symm.trans hy)
  have hcur := State.cur_put hu y
  refine ⟨hprog, fun x hx => ?_⟩
  obtain rfl | hx := State.mem_put hx
  · exact ⟨exec_keeps_unitOk hu hexec hcur hok, fun _ => hrun hst,
      fun hne => exec_keeps_account hu hexec hcur hok (hcount hne)⟩
  · exact hunits x hx

theorem unitStep_keeps_inv (hinv : Inv s) (h : unitStep s = .next t) : Inv t := by
  obtain ⟨u, hu, ⟨-, rfl⟩ | ⟨w, hst, -, hexec⟩⟩ := unitStep_next h
  · exact hinv
  · exact exec_keeps_inv hinv hu hst hexec

/-- An accepted request starts its unit under a program, and leaves the unit's account. -/
theorem submit_keeps_inv {r : Request} (hinv : Inv s) (h : s.submit r = .next t) : Inv t := by
  obtain ⟨hprog, hunits⟩ := hinv
  obtain ⟨u, hu, -, -, hloaded, -, rfl⟩ := State.submit_next h
  have hne : s.prog ≠ 0 := by obtain hp | hp := hloaded <;> simp [hp]
  obtain ⟨-, -, hcount⟩ := hunits u (List.mem_of_getElem? hu)
  refine ⟨hprog, fun x hx => ?_⟩
  obtain hx | rfl := List.mem_or_eq_of_mem_set hx
  · exact hunits x hx
  · exact ⟨⟨Memory.wf_ofBytes r.bytes, nofun, nofun⟩, fun _ => hne, fun _ => countersMatch_congr rfl rfl (hcount hne)⟩

/-- LOAD leaves every unit IDLE, with an empty frame and an empty account. -/
theorem load_keeps_inv {p : BitVec 2} (h : s.load p = .next t) : Inv t := by
  obtain ⟨hp, -, rfl⟩ := State.load_next h
  have hp : p ≠ 3 ∧ p ≠ 0 := by obtain rfl | rfl := hp <;> decide
  refine ⟨hp.1, fun x hx => ?_⟩
  obtain ⟨u, -, rfl⟩ := List.mem_map.mp hx
  exact ⟨⟨rfl, nofun, nofun⟩, fun _ => hp.2, fun _ => countersMatch_load u⟩

end

/-- Settles O54, by the move the step makes. -/
theorem stepKeepsInvariant : Obligations.StepKeepsInvariant := by
  unfold Obligations.StepKeepsInvariant
  intro s t hinv hstep
  obtain ⟨ag, tn, h | ⟨r, h⟩ | ⟨p, h⟩ | ⟨v, a, f, h⟩⟩ := step_next hstep
  · exact unitStep_keeps_inv (s := { s with agenda := ag, turn := tn }) hinv h
  · exact submit_keeps_inv (s := { s with agenda := ag, turn := tn }) hinv h
  · exact load_keeps_inv h
  · obtain ⟨x, c, -, -, rfl⟩ := State.monitorRead_next h
    exact hinv

end Sys2Proof.Machine
end

section
/-! PROOFS. The statements of 60_exceptions.md: an IDLE unit waits, a unit in FAULT stays there, and the entry to FAULT changes ST
alone. -/

namespace Sys2Proof.Machine

/-! ### An IDLE unit (R145) -/

/-- Settles O7, by who moves the unit: its turn or the agenda. -/
theorem idleUnitWaits : Obligations.IdleUnitWaits := by
  unfold Obligations.IdleUnitWaits
  constructor
  · intro s u hag hu hst
    rw [step_nil hag]
    exact unitStep_idle hu hst
  · intro s v rest u hag hu hst
    rw [step_cons hag]
    exact unitStep_idle (s := { s with agenda := rest, turn := v }) hu hst

/-! ### The entry to FAULT (R13, R130) -/

section
variable {i : Instr} {u y : UnitState}

theorem Moved.keeps_st (h : Moved i u y) : y.st = u.st := by
  cases h with
  | advance st => exact st
  | resolve st => exact st
  | branch => rfl

/-- An effect leaves ST or, in FIN, makes it IDLE: FAULT is entered by `raise` only. -/
theorem unitMeaning_st {cfg : BitVec 4} {unit : Nat} (h : unitMeaning i cfg unit u = .ok y) : y.st = u.st ∨ y.st = .idle := by
  by_cases hfin : i = .fin
  · subst hfin
    exact .inr (fin_leaves_pc h).1
  · exact .inl (unitMeaning_moved hfin h).keeps_st

end

/-- Settles O46: what exec puts is an effect, which never is a unit in FAULT, or the unit with its fault raised. -/
theorem faultEntryChangesOnlySt : Obligations.FaultEntryChangesOnlySt := by
  unfold Obligations.FaultEntryChangesOnlySt
  intro i s t u y r hu hrun hexec hy hfault
  obtain ⟨x, hx⟩ := exec_completes i hu
  obtain rfl := Host.Outcome.next.inj (hexec.symm.trans hx)
  obtain rfl : x = y := Option.some.inj ((State.cur_put hu x).symm.trans hy)
  obtain h | ⟨q, rfl⟩ := exec_next_cur hu hexec hy
  · have hst := unitMeaning_st h
    simp [hfault, hrun] at hst
  · obtain rfl : q = r := RunState.fault.inj hfault
    rfl

/-! ### A unit in FAULT (R130) -/

/-- Another state for a unit leaves alone every unit whose ST differs from that unit's. -/
theorem getElem?_set_of_st_ne {units : List UnitState} {v w : Nat} {u x : UnitState} (hu : units[v]? = some u)
    (hx : units[w]? = some x) (hst : x.st ≠ u.st) (y : UnitState) : (units.set w y)[v]? = some u := by
  have hne : w ≠ v := by
    rintro rfl
    exact hst (congrArg UnitState.st (Option.some.inj (hx.symm.trans hu)))
  rw [List.getElem?_set_ne hne, hu]

section
variable {s t : State} {v : Nat} {u : UnitState} {r : FaultReason}

/-- A unit's step changes a unit in RUN only. -/
theorem unitStep_keeps_faulted (hu : s.units[v]? = some u) (hst : u.st = .fault r) (h : unitStep s = .next t) :
    t.units[v]? = some u := by
  obtain ⟨x, hx, ⟨-, rfl⟩ | ⟨w, hrun, -, hexec⟩⟩ := unitStep_next h
  · exact hu
  · obtain ⟨y, hy⟩ := exec_completes (decode w) hx
    obtain rfl := Host.Outcome.next.inj (hexec.symm.trans hy)
    exact getElem?_set_of_st_ne hu hx (by simp [hrun, hst]) y

/-- A request changes an IDLE unit only. -/
theorem submit_keeps_faulted {q : Request} (hu : s.units[v]? = some u) (hst : u.st = .fault r) (h : s.submit q = .next t) :
    t.units[v]? = some u := by
  obtain ⟨x, hx, -, -, -, hidle, rfl⟩ := State.submit_next h
  exact getElem?_set_of_st_ne hu hx (by simp [hidle, hst]) _

/-- LOAD has no move while a unit is in FAULT. -/
theorem load_not_next_of_faulted {p : BitVec 2} (hu : s.units[v]? = some u) (hst : u.st = .fault r) : s.load p ≠ .next t := by
  intro h
  obtain ⟨-, hidle, -⟩ := State.load_next h
  have hst' := hidle u (List.mem_of_getElem? hu)
  simp [hst] at hst'

end

/-- Settles O9, by the move the step makes: no move changes a unit in FAULT. -/
theorem faultIsSticky : Obligations.FaultIsSticky := by
  unfold Obligations.FaultIsSticky
  intro s t v u r hu hst hstep
  obtain ⟨ag, tn, h | ⟨q, h⟩ | ⟨p, h⟩ | ⟨w, a, f, h⟩⟩ := step_next hstep
  · exact unitStep_keeps_faulted (s := { s with agenda := ag, turn := tn }) hu hst h
  · exact submit_keeps_faulted (s := { s with agenda := ag, turn := tn }) hu hst h
  · exact absurd h (load_not_next_of_faulted (s := { s with agenda := ag, turn := tn }) hu hst)
  · obtain ⟨x, c, -, -, rfl⟩ := State.monitorRead_next h
    exact hu

end Sys2Proof.Machine
end

section
/-! PROOFS. The statements of 70_reset_and_hazards.md about faults: on ROM 0 and ROM 1 every micro-operation finds the registers it
reads written and the bytes it reads and writes inside the frame (R148). -/

namespace Sys2Proof.Machine

open Sys2Proof.Safety (RomInv finReady initialised l3Covered posCovered producedAction rom0Covered rom1Covered romUnitOk
  walkCovered)

/-! ### A micro-operation that stays on a covered path -/

/-- The unit is IDLE, or in RUN where the coverage `cov` of its ROM holds. -/
def StaysCovered (cov : Nat → UnitState → Prop) (y : UnitState) : Prop := y.st = .idle ∨ y.st = .run ∧ cov y.pc.toNat y

/-- The micro-operation raises no fault, and leaves its unit on a covered path. -/
def CompletesCovered (cov : Nat → UnitState → Prop) (o : Except FaultReason UnitState) : Prop :=
  ∃ y, o = .ok y ∧ StaysCovered cov y

/-- The unit is in RUN at address n of a ROM whose coverage includes that of the walk. -/
structure RunsAt (cov : Nat → UnitState → Prop) (u : UnitState) (n : Nat) : Prop where
  st : u.st = .run
  pc : u.pc.toNat = n
  walk : ∀ pc x, walkCovered pc x → cov pc x

/-- CINIT has run, too. -/
structure OnPath (cov : Nat → UnitState → Prop) (u : UnitState) (n : Nat) : Prop extends RunsAt cov u n where
  init : initialised u

section
variable {cov : Nat → UnitState → Prop} {u y : UnitState} {n : Nat}

theorem RunsAt.next (h : RunsAt cov u n) (hst : y.st = u.st) (hpc : y.pc = u.pc + 1) (hnext : cov ((n + 1) % 64) y) :
    StaysCovered cov y := by
  have hpc' : y.pc.toNat = (n + 1) % 64 := by rw [hpc, BitVec.toNat_add, h.pc]; rfl
  exact .inr ⟨hst.trans h.st, hpc' ▸ hnext⟩

theorem RunsAt.atFin (h : RunsAt cov u n) (hst : y.st = u.st) (hpc : y.pc = finPc) (hfin : finReady y) :
    StaysCovered cov y :=
  .inr ⟨hst.trans h.st, by rw [hpc]; exact h.walk 0x3F y hfin⟩

/-! ### What CINIT has written -/

theorem OnPath.endOff (h : OnPath cov u n) : u.endOff = some u.len := by
  obtain ⟨hend, -⟩ := h.init
  exact hend

theorem OnPath.exists_pos (h : OnPath cov u n) : ∃ p, u.pos = some p := by
  obtain ⟨-, hpos, -⟩ := h.init
  exact Option.isSome_iff_exists.mp hpos

theorem OnPath.exists_proto (h : OnPath cov u n) : ∃ pr, u.proto = some pr := by
  obtain ⟨-, -, -, hproto, -⟩ := h.init
  exact Option.isSome_iff_exists.mp hproto

theorem OnPath.exists_vdepth (h : OnPath cov u n) : ∃ d, u.vdepth = some d := by
  obtain ⟨-, -, -, -, hvdepth, -⟩ := h.init
  exact Option.isSome_iff_exists.mp hvdepth

/-! ### Resolving -/

/-- An action that needs no target may be resolved wherever CINIT has run. -/
theorem OnPath.resolve (h : OnPath cov u n) {a : BitVec 3} (c : BitVec 4) (ha : producedAction a) (hne : a ≠ actRedirect) :
    StaysCovered cov (u.resolve a c) :=
  h.atFin rfl rfl ⟨h.endOff, a, rfl, ha, fun heq => absurd heq hne⟩

theorem OnPath.pass (h : OnPath cov u n) (c : BitVec 4) : StaysCovered cov (u.resolve actPass c) :=
  h.resolve c producedAction_pass (by decide)

theorem OnPath.drop (h : OnPath cov u n) (c : BitVec 4) : StaysCovered cov (u.resolve actDrop c) :=
  h.resolve c producedAction_drop (by decide)

/-- Either outcome of a micro-operation that answers by a condition. -/
theorem completesCovered_ite {o : Except FaultReason UnitState} {b : Prop} [Decidable b] {z : UnitState}
    (ho : o = .ok (if b then y else z)) (hy : StaysCovered cov y) (hz : StaysCovered cov z) : CompletesCovered cov o := by
  refine ⟨_, ho, ?_⟩
  split
  · exact hy
  · exact hz

/-! ### The micro-operations of the cursor and the walk -/

theorem RunsAt.cinit (h : RunsAt cov u n) (hnext : ∀ y, initialised y → cov ((n + 1) % 64) y) :
    CompletesCovered cov (cinit u) :=
  ⟨_, cinit_eq u, h.next rfl rfl (hnext _ ⟨rfl, rfl, rfl, rfl, rfl, rfl, rfl⟩)⟩

theorem OnPath.chk (h : OnPath cov u n) {m : BitVec 8} (hnext : posCovered u m.toNat → cov ((n + 1) % 64) u.advance) :
    CompletesCovered cov (chk m u) := by
  obtain ⟨p, hp⟩ := h.exists_pos
  by_cases hle : p.toNat + m.toNat ≤ u.len.toNat
  · exact ⟨_, chk_of_le hp h.endOff hle, h.next rfl rfl (hnext ⟨p, hp, hle⟩)⟩
  · exact ⟨_, chk_of_lt hp h.endOff (Nat.lt_of_not_le hle), h.pass _⟩

theorem OnPath.adv (h : OnPath cov u n) {m : BitVec 8} (hnext : ∀ y, initialised y → cov ((n + 1) % 64) y) :
    CompletesCovered cov (adv m u) := by
  obtain ⟨p, hp⟩ := h.exists_pos
  by_cases hle : p.toNat + m.toNat ≤ u.len.toNat
  · obtain ⟨hend, -, hrest⟩ := h.init
    exact ⟨_, adv_of_le hp h.endOff hle, h.next rfl rfl (hnext _ ⟨hend, rfl, hrest⟩)⟩
  · exact ⟨_, adv_of_lt hp h.endOff (Nat.lt_of_not_le hle), h.pass _⟩

theorem OnPath.eth (h : OnPath cov u n) (hnext : ∀ y, initialised y → 14 ≤ y.len.toNat → cov ((n + 1) % 64) y) :
    CompletesCovered cov (eth u) := by
  obtain ⟨p, hp⟩ := h.exists_pos
  by_cases hle : p.toNat + 14 ≤ u.len.toNat
  · obtain ⟨hend, -, hl3, -, hrest⟩ := h.init
    exact ⟨_, eth_of_le hp h.endOff hle, h.next rfl rfl (hnext _ ⟨hend, rfl, hl3, rfl, hrest⟩ (by simp; omega))⟩
  · exact ⟨_, eth_of_lt hp h.endOff (Nat.lt_of_not_le hle), h.pass _⟩

theorem OnPath.vlan (h : OnPath cov u n) (unit : Nat)
    (hnext : ∀ y, initialised y → y.len = u.len → cov ((n + 1) % 64) y) : CompletesCovered cov (vlan unit u) := by
  obtain ⟨pr, hpr⟩ := h.exists_proto
  obtain ⟨p, hp⟩ := h.exists_pos
  obtain ⟨d, hd⟩ := h.exists_vdepth
  by_cases htag : isVlanTpid pr = true
  · by_cases hle : p.toNat + 4 ≤ u.len.toNat
    · obtain ⟨hend, -, hl3, -, -, hrest⟩ := h.init
      refine ⟨_, vlan_of_le unit hpr htag hp h.endOff hle hd, h.next (by simp) (by simp) (hnext _ ?_ (by simp))⟩
      obtain ⟨d', k, -, hinc⟩ := UnitState.incVdepth_eq u.draws unit d
      rw [hinc]
      · exact ⟨hend, rfl, hl3, rfl, rfl, hrest⟩
      · rfl
    · exact ⟨_, vlan_of_lt unit hpr htag hp h.endOff (Nat.lt_of_not_le hle), h.pass _⟩
  · exact ⟨_, vlan_of_no_tag unit hpr htag, h.next rfl rfl (hnext _ h.init rfl)⟩

theorem OnPath.branchOnProto (h : OnPath cov u n) {wanted : BitVec 16} {t : BitVec 6}
    (htaken : ∀ y, initialised y → y.len = u.len → y.l3 = y.pos → cov t.toNat y) (hnext : cov ((n + 1) % 64) u.advance) :
    CompletesCovered cov (branchOnProto wanted t u) := by
  obtain ⟨pr, hpr⟩ := h.exists_proto
  obtain ⟨p, hp⟩ := h.exists_pos
  by_cases heq : pr = wanted
  · obtain ⟨hend, hpos, -, hrest⟩ := h.init
    exact ⟨_, branchOnProto_taken t (heq ▸ hpr) hp, .inr ⟨h.st, htaken _ ⟨hend, hpos, rfl, hrest⟩ rfl hp.symm⟩⟩
  · exact ⟨_, branchOnProto_not_taken t hpr heq, h.next rfl rfl hnext⟩

/-! ### The micro-operations of the classifier -/

theorem OnPath.c4dst (h : OnPath cov u n) (cfg : BitVec 4) (hl3 : l3Covered u 20) (hnext : cov ((n + 1) % 64) u.advance) :
    CompletesCovered cov (c4dst cfg u) := by
  obtain ⟨l, hl, hle⟩ := hl3
  have hoff : dstOctetOffset cfg ≤ 19 := by unfold dstOctetOffset; split <;> decide
  exact completesCovered_ite (c4dst_eq hl h.endOff cfg (by omega)) (h.drop _) (h.next rfl rfl hnext)

theorem OnPath.c4frag (h : OnPath cov u n) (hl3 : l3Covered u 20) (hnext : cov ((n + 1) % 64) u.advance) :
    CompletesCovered cov (c4frag u) := by
  obtain ⟨l, hl, hle⟩ := hl3
  exact completesCovered_ite (c4frag_eq hl h.endOff (by omega)) (h.drop _) (h.next rfl rfl hnext)

theorem OnPath.c4l4 (h : OnPath cov u n) (cfg : BitVec 4) (unit : Nat) (hl3 : l3Covered u 20)
    (hnext : ∀ y, initialised y → cov ((n + 1) % 64) y) : CompletesCovered cov (c4l4 cfg unit u) := by
  obtain ⟨l, hl, hle⟩ := hl3
  have moves (v : Nat) : StaysCovered cov (u.setPos unit v).advance := by
    obtain ⟨hend, -, hrest⟩ := h.init
    obtain ⟨p, k, -, hpos⟩ := u.setPos_eq unit v
    rw [hpos]
    exact h.next rfl rfl (hnext _ ⟨hend, rfl, hrest⟩)
  rw [c4l4_eq hl h.endOff cfg unit (by omega)]
  split
  · exact ⟨_, rfl, h.pass _⟩
  · split
    · exact ⟨_, rfl, moves _⟩
    · split
      · exact ⟨_, rfl, h.pass _⟩
      · exact ⟨_, rfl, moves _⟩

theorem OnPath.c6l4 (h : OnPath cov u n) (hl3 : l3Covered u 40) (hnext : cov ((n + 1) % 64) u.advance) :
    CompletesCovered cov (c6l4 u) := by
  obtain ⟨l, hl, hle⟩ := hl3
  exact completesCovered_ite (c6l4_eq hl h.endOff (by omega)) (h.pass _) (h.next rfl rfl hnext)

theorem OnPath.cudp (h : OnPath cov u n) (hpos : posCovered u 8) : CompletesCovered cov (cudp u) := by
  obtain ⟨p, hp, hle⟩ := hpos
  exact completesCovered_ite (cudp_eq hp h.endOff (by omega)) (h.drop _) (h.pass _)

/-! ### The micro-operations of the forwarder -/

theorem OnPath.hopGuardAt (h : OnPath cov u n) {k m : Nat} (hl3 : l3Covered u m) (hk : k < m)
    (hnext : cov ((n + 1) % 64) u.advance) : CompletesCovered cov (hopGuardAt k u) := by
  obtain ⟨l, hl, hle⟩ := hl3
  exact completesCovered_ite (hopGuardAt_eq hl h.endOff k (by omega)) (h.pass _) (h.next rfl rfl hnext)

theorem OnPath.q4 (h : OnPath cov u n) (hl3 : l3Covered u 20)
    (hnext : ∀ q, cov ((n + 1) % 64) { u with q := some q }.advance) : CompletesCovered cov (q4 u) := by
  obtain ⟨l, hl, hle⟩ := hl3
  exact ⟨_, q4_eq hl h.endOff hle, h.next rfl rfl (hnext _)⟩

theorem OnPath.q6 (h : OnPath cov u n) (hl3 : l3Covered u 40)
    (hnext : ∀ q, cov ((n + 1) % 64) { u with q := some q }.advance) : CompletesCovered cov (q6 u) := by
  obtain ⟨l, hl, hle⟩ := hl3
  exact ⟨_, q6_eq hl h.endOff hle, h.next rfl rfl (hnext _)⟩

/-- A lookup consumes a ready answer or a free value, and nothing else (log 11). -/
theorem UnitState.lookupAsked_eq (u : UnitState) :
    ∃ answers draws, u.lookupAsked = { u with lookupAnswers := answers, draws := draws } := by
  unfold UnitState.lookupAsked
  split <;> exact ⟨_, _, rfl⟩

theorem OnPath.fib (h : OnPath cov u n) (unit : Nat) (hq : u.q.isSome = true)
    (hnext : ∀ a answers draws,
      cov ((n + 1) % 64) { u with r := some a, lookupAnswers := answers, draws := draws }.advance) :
    CompletesCovered cov (fib unit u) := by
  obtain ⟨q, hq⟩ := Option.isSome_iff_exists.mp hq
  obtain ⟨answers, draws, hasked⟩ := u.lookupAsked_eq
  refine ⟨_, fib_eq unit hq, ?_⟩
  rw [hasked]
  exact h.next rfl rfl (hnext _ _ _)

theorem OnPath.fdisp (h : OnPath cov u n) (hr : u.r.isSome = true) (hnext : cov ((n + 1) % 64) u.advance) :
    CompletesCovered cov (fdisp u) := by
  obtain ⟨a, ha⟩ := Option.isSome_iff_exists.mp hr
  by_cases hsuccess : a.rc = 0
  · exact ⟨_, fdisp_of_success ha hsuccess, h.next rfl rfl hnext⟩
  by_cases hhard : a.rc.toNat ≤ 3
  · exact ⟨_, fdisp_of_hard ha hsuccess hhard, h.drop _⟩
  · exact ⟨_, fdisp_of_soft ha (Nat.lt_of_not_le hhard), h.pass _⟩

/-! ### The micro-operations of the rewrite -/

theorem OnPath.dec4 (h : OnPath cov u n) (cfg : BitVec 4) (unit : Nat) (hl3 : l3Covered u 20)
    (hnext : ∀ m draws, cov ((n + 1) % 64) { u with frame := m, pc := u.pc + 1, draws := draws }) :
    CompletesCovered cov (dec4 cfg unit u) := by
  obtain ⟨l, hl, hle⟩ := hl3
  exact ⟨_, dec4_eq_of_anyHop hl h.endOff cfg unit (by omega) rfl rfl, h.next rfl rfl (hnext _ _)⟩

theorem OnPath.dec6 (h : OnPath cov u n) (unit : Nat) (hl3 : l3Covered u 40)
    (hnext : ∀ m draws, cov ((n + 1) % 64) { u with frame := m, pc := u.pc + 1, draws := draws }) :
    CompletesCovered cov (dec6 unit u) := by
  obtain ⟨l, hl, hle⟩ := hl3
  exact ⟨_, dec6_eq_of_anyHop hl h.endOff unit (by omega) rfl, h.next rfl rfl (hnext _ _)⟩

theorem OnPath.l2rw (h : OnPath cov u n) (hlen : 14 ≤ u.len.toNat) (hr : u.r.isSome = true)
    (hnext : ∀ m, cov ((n + 1) % 64) { u with frame := m }.advance) : CompletesCovered cov (l2rw u) := by
  obtain ⟨a, ha⟩ := Option.isSome_iff_exists.mp hr
  exact ⟨_, l2rw_eq ha h.endOff (by omega), h.next rfl rfl (hnext _)⟩

theorem OnPath.redir (h : OnPath cov u n) (cfg : BitVec 4) (unit : Nat) (hr : u.r.isSome = true) :
    CompletesCovered cov (redir cfg unit u) := by
  obtain ⟨a, ha⟩ := Option.isSome_iff_exists.mp hr
  have hend := h.endOff
  refine ⟨_, redir_eq cfg unit ha, ?_⟩
  split
  · split
    · exact h.atFin (by simp) rfl ⟨by simpa using hend, _, rfl, producedAction_redirect, fun _ => rfl⟩
    · exact h.atFin (by simp) rfl ⟨by simpa using hend, _, rfl, producedAction_aborted, nofun⟩
  · exact h.atFin rfl rfl ⟨hend, _, rfl, producedAction_redirect, fun _ => rfl⟩

/-! ### FIN -/

theorem fin_completesCovered (h : finReady u) : CompletesCovered cov (fin u) := by
  obtain ⟨hend, a, ha, hproduced, htgt⟩ := h
  have hknown : a.toNat < 5 := by obtain rfl | rfl | rfl | rfl := hproduced <;> decide
  by_cases hredir : a = actRedirect
  · obtain ⟨o, ho⟩ := Option.isSome_iff_exists.mp (htgt hredir)
    exact ⟨_, fin_of_target ha hend hknown (UnitState.targetOut_eq fun _ => ho), .inl rfl⟩
  · exact ⟨_, fin_of_no_target ha hend hknown hredir, .inl rfl⟩

end

/-! ### The walk of both ROMs -/

/-- The bytes a check found at pos lie at l3, where a branch has just set it to pos. -/
theorem l3Covered_of_posCovered {u : UnitState} {n : Nat} (hl3 : u.l3 = u.pos) (h : posCovered u n) : l3Covered u n := by
  rwa [l3Covered, hl3]

/-- A ROM that begins as both do, with JP6's target t, and a coverage that follows it (R122, R123). -/
structure BeginsWithWalk (rom : List Word) (cov : Nat → UnitState → Prop) (t : BitVec 6) : Prop where
  ops : ∀ k < 8, decode (rom.getD k 0) =
    [Instr.cinit, .eth, .vlan, .vlan, .jp4 0x07, .jp6 t, .unsup, .chk 20].getD k .ill
  fin : decode (rom.getD 0x3F 0) = .fin
  walk : ∀ pc x, walkCovered pc x → cov pc x
  ipv4 : ∀ x, initialised x → 14 ≤ x.len.toNat → l3Covered x 20 → cov 0x08 x
  ipv6 : ∀ x, initialised x → 14 ≤ x.len.toNat → x.l3 = x.pos → cov t.toNat x

/-- Every word of the walk, the CHK 20 after it and FIN complete on a covered path (R84, R148). -/
theorem walk_completesCovered {rom : List Word} {cov : Nat → UnitState → Prop} {t : BitVec 6} {u : UnitState} {n : Nat}
    (hrom : BeginsWithWalk rom cov t) (hat : RunsAt cov u n) (h : walkCovered n u) (cfg : BitVec 4) (unit : Nat) :
    CompletesCovered cov (unitMeaning (decode (rom.getD n 0)) cfg unit u) := by
  have hwalk := hrom.walk
  unfold walkCovered at h
  split at h
  · -- 00 CINIT
    rw [hrom.ops _ (by decide)]
    exact hat.cinit fun y hy => hwalk 0x01 y hy
  · -- 01 ETH
    rw [hrom.ops _ (by decide)]
    exact OnPath.eth ⟨hat, h⟩ fun y hy hlen => hwalk 0x02 y ⟨hy, hlen⟩
  · -- 02 VLAN
    rw [hrom.ops _ (by decide)]
    obtain ⟨hinit, hlen⟩ := h
    exact OnPath.vlan ⟨hat, hinit⟩ unit fun y hy hsame => hwalk 0x03 y ⟨hy, hsame ▸ hlen⟩
  · -- 03 VLAN
    rw [hrom.ops _ (by decide)]
    obtain ⟨hinit, hlen⟩ := h
    exact OnPath.vlan ⟨hat, hinit⟩ unit fun y hy hsame => hwalk 0x04 y ⟨hy, hsame ▸ hlen⟩
  · -- 04 JP4
    rw [hrom.ops _ (by decide)]
    obtain ⟨hinit, hlen⟩ := h
    exact OnPath.branchOnProto ⟨hat, hinit⟩ (fun y hy hsame hl3 => hwalk 0x07 y ⟨hy, hsame ▸ hlen, hl3⟩)
      (hwalk 0x05 _ ⟨hinit, hlen⟩)
  · -- 05 JP6
    rw [hrom.ops _ (by decide)]
    obtain ⟨hinit, hlen⟩ := h
    exact OnPath.branchOnProto ⟨hat, hinit⟩ (fun y hy hsame hl3 => hrom.ipv6 y hy (hsame ▸ hlen) hl3)
      (hwalk 0x06 _ ⟨hinit, hlen⟩)
  · -- 06 UNSUP
    rw [hrom.ops _ (by decide)]
    obtain ⟨hinit, -⟩ := h
    exact ⟨_, rfl, OnPath.pass ⟨hat, hinit⟩ _⟩
  · -- 07 CHK 20
    rw [hrom.ops _ (by decide)]
    obtain ⟨hinit, hlen, hl3⟩ := h
    exact OnPath.chk ⟨hat, hinit⟩ fun hpos => hrom.ipv4 _ hinit hlen (l3Covered_of_posCovered hl3 hpos)
  · -- 3F FIN
    rw [hrom.fin]
    exact fin_completesCovered h
  · exact h.elim

/-! ### ROM 0 and ROM 1 -/

theorem rom0_beginsWithWalk : BeginsWithWalk romDropFilter rom0Covered 0x0D where
  ops := by decide
  fin := by decide
  walk := by
    intro pc x h
    unfold rom0Covered
    split
    -- the walk covers none of the addresses the ROM has of its own
    any_goals contradiction
    exact h
  ipv4 := fun x hinit _ hl3 => ⟨hinit, hl3⟩
  ipv6 := fun x hinit _ hl3 => ⟨hinit, hl3⟩

theorem rom1_beginsWithWalk : BeginsWithWalk romForwarder rom1Covered 0x0F where
  ops := by decide
  fin := by decide
  walk := by
    intro pc x h
    unfold rom1Covered
    split
    -- the walk covers none of the addresses the ROM has of its own
    any_goals contradiction
    exact h
  ipv4 := fun x hinit hlen hl3 => ⟨hinit, hlen, hl3⟩
  ipv6 := fun x hinit hlen hl3 => ⟨hinit, hlen, hl3⟩

section
variable {u : UnitState} {n : Nat} (cfg : BitVec 4) (unit : Nat)

/-- Every word of ROM 0 completes on a covered path (R122, R148). -/
theorem rom0_completesCovered (hat : RunsAt rom0Covered u n) (h : rom0Covered n u) :
    CompletesCovered rom0Covered (unitMeaning (decode (romDropFilter.getD n 0)) cfg unit u) := by
  unfold rom0Covered at h
  split at h
  · -- 08 C4DST
    obtain ⟨hinit, hl3⟩ := h
    exact OnPath.c4dst ⟨hat, hinit⟩ cfg hl3 ⟨hinit, hl3⟩
  · -- 09 C4FRAG
    obtain ⟨hinit, hl3⟩ := h
    exact OnPath.c4frag ⟨hat, hinit⟩ hl3 ⟨hinit, hl3⟩
  · -- 0A C4L4
    obtain ⟨hinit, hl3⟩ := h
    exact OnPath.c4l4 ⟨hat, hinit⟩ cfg unit hl3 fun y hy => hy
  · -- 0B CHK 8
    exact OnPath.chk ⟨hat, h⟩ fun hpos => ⟨h, hpos⟩
  · -- 10 CHK 8
    exact OnPath.chk ⟨hat, h⟩ fun hpos => ⟨h, hpos⟩
  · -- 0C CUDP
    obtain ⟨hinit, hpos⟩ := h
    exact OnPath.cudp ⟨hat, hinit⟩ hpos
  · -- 11 CUDP
    obtain ⟨hinit, hpos⟩ := h
    exact OnPath.cudp ⟨hat, hinit⟩ hpos
  · -- 0D CHK 40
    obtain ⟨hinit, hl3⟩ := h
    exact OnPath.chk ⟨hat, hinit⟩ fun hpos => ⟨hinit, l3Covered_of_posCovered hl3 hpos⟩
  · -- 0E C6L4
    obtain ⟨hinit, hl3⟩ := h
    exact OnPath.c6l4 ⟨hat, hinit⟩ hl3 hinit
  · -- 0F ADV 40
    exact OnPath.adv ⟨hat, h⟩ fun y hy => hy
  · -- the walk
    exact walk_completesCovered rom0_beginsWithWalk hat h cfg unit

/-- Every word of ROM 1 completes on a covered path (R123, R148). -/
theorem rom1_completesCovered (hat : RunsAt rom1Covered u n) (h : rom1Covered n u) :
    CompletesCovered rom1Covered (unitMeaning (decode (romForwarder.getD n 0)) cfg unit u) := by
  unfold rom1Covered at h
  split at h
  · -- 08 TTL4
    obtain ⟨hinit, hlen, hl3⟩ := h
    exact OnPath.hopGuardAt ⟨hat, hinit⟩ hl3 (by decide) ⟨hinit, hlen, hl3⟩
  · -- 09 Q4
    obtain ⟨hinit, hlen, hl3⟩ := h
    exact OnPath.q4 ⟨hat, hinit⟩ hl3 fun q => ⟨hinit, hlen, hl3, rfl⟩
  · -- 0A FIB
    obtain ⟨hinit, hlen, hl3, hq⟩ := h
    exact OnPath.fib ⟨hat, hinit⟩ unit hq fun a answers draws => ⟨hinit, hlen, hl3, rfl⟩
  · -- 0B FDISP
    obtain ⟨hinit, hlen, hl3, hr⟩ := h
    exact OnPath.fdisp ⟨hat, hinit⟩ hr ⟨hinit, hlen, hl3, hr⟩
  · -- 0C DEC4
    obtain ⟨hinit, hlen, hl3, hr⟩ := h
    exact OnPath.dec4 ⟨hat, hinit⟩ cfg unit hl3 fun m draws => ⟨hinit, hlen, hr⟩
  · -- 0D L2RW
    obtain ⟨hinit, hlen, hr⟩ := h
    exact OnPath.l2rw ⟨hat, hinit⟩ hlen hr fun m => ⟨hinit, hlen, hr⟩
  · -- 0E REDIR
    obtain ⟨hinit, -, hr⟩ := h
    exact OnPath.redir ⟨hat, hinit⟩ cfg unit hr
  · -- 15 L2RW
    obtain ⟨hinit, hlen, hr⟩ := h
    exact OnPath.l2rw ⟨hat, hinit⟩ hlen hr fun m => ⟨hinit, hlen, hr⟩
  · -- 16 REDIR
    obtain ⟨hinit, -, hr⟩ := h
    exact OnPath.redir ⟨hat, hinit⟩ cfg unit hr
  · -- 0F CHK 40
    obtain ⟨hinit, hlen, hl3⟩ := h
    exact OnPath.chk ⟨hat, hinit⟩ fun hpos => ⟨hinit, hlen, l3Covered_of_posCovered hl3 hpos⟩
  · -- 10 TTL6
    obtain ⟨hinit, hlen, hl3⟩ := h
    exact OnPath.hopGuardAt ⟨hat, hinit⟩ hl3 (by decide) ⟨hinit, hlen, hl3⟩
  · -- 11 Q6
    obtain ⟨hinit, hlen, hl3⟩ := h
    exact OnPath.q6 ⟨hat, hinit⟩ hl3 fun q => ⟨hinit, hlen, hl3, rfl⟩
  · -- 12 FIB
    obtain ⟨hinit, hlen, hl3, hq⟩ := h
    exact OnPath.fib ⟨hat, hinit⟩ unit hq fun a answers draws => ⟨hinit, hlen, hl3, rfl⟩
  · -- 13 FDISP
    obtain ⟨hinit, hlen, hl3, hr⟩ := h
    exact OnPath.fdisp ⟨hat, hinit⟩ hr ⟨hinit, hlen, hl3, hr⟩
  · -- 14 DEC6
    obtain ⟨hinit, hlen, hl3, hr⟩ := h
    exact OnPath.dec6 ⟨hat, hinit⟩ unit hl3 fun m draws => ⟨hinit, hlen, hr⟩
  · -- the walk
    exact walk_completesCovered rom1_beginsWithWalk hat h cfg unit

end

/-! ### One step -/

theorem romUnitOk_of_idle {y : UnitState} (prog : BitVec 2) (h : y.st = .idle) : romUnitOk prog y := by
  simp [romUnitOk, h]

/-- A unit that stays on a path of the attached program is as the ROM invariant has it. -/
theorem StaysCovered.romUnitOk {prog : BitVec 2} {cov : Nat → UnitState → Prop} {y : UnitState} (h : StaysCovered cov y)
    (hcov : ∀ pc x, cov pc x → prog = 1 ∧ rom0Covered pc x ∨ prog = 2 ∧ rom1Covered pc x) : romUnitOk prog y := by
  obtain hidle | ⟨hrun, h⟩ := h
  · exact romUnitOk_of_idle prog hidle
  · exact ⟨by simp [hrun], fun _ => hcov _ _ h⟩

/-- Neither stops the machine with a fault nor leaves the ROM invariant. -/
def Safe (o : Host.Outcome State Fault Refusal) : Prop := (∀ f, o ≠ .fault f) ∧ ∀ t, o = .next t → RomInv t

theorem safe_next {t : State} (h : RomInv t) : Safe (.next t) :=
  ⟨nofun, fun _ heq => Host.Outcome.next.inj heq ▸ h⟩

theorem safe_refused (r : Refusal) : Safe (.refused r) := ⟨nofun, nofun⟩

section
variable {s : State} (hinv : RomInv s)
include hinv

theorem romInv_put {y : UnitState} (hy : romUnitOk s.prog y) : RomInv (s.put y) := by
  obtain ⟨hrom0, hrom1, hprog, hunits⟩ := hinv
  refine ⟨hrom0, hrom1, hprog, fun x hx => ?_⟩
  obtain rfl | hx := State.mem_put hx
  · exact hy
  · exact hunits x hx

/-- A unit in RUN fetches a word that raises no fault and leaves it on a covered path. -/
theorem fetched_completes {u : UnitState} (hu : s.cur = some u) (hst : u.st = .run) :
    ∃ w y, s.fetch u = some w ∧ unitMeaning (decode w) s.cfg s.turn u = .ok y ∧ romUnitOk s.prog y := by
  obtain ⟨hrom0, hrom1, -, hunits⟩ := hinv
  obtain ⟨-, hrun⟩ := hunits u (State.mem_of_cur hu)
  obtain ⟨hprog, hcov⟩ | ⟨hprog, hcov⟩ := hrun hst
  · obtain ⟨y, hy, hstays⟩ := rom0_completesCovered s.cfg s.turn ⟨hst, rfl, rom0_beginsWithWalk.walk⟩ hcov
    refine ⟨_, y, ?_, hy, hstays.romUnitOk fun pc x h => .inl ⟨hprog, h⟩⟩
    simp [State.fetch, State.selectedRom, hprog, hrom0]
  · obtain ⟨y, hy, hstays⟩ := rom1_completesCovered s.cfg s.turn ⟨hst, rfl, rom1_beginsWithWalk.walk⟩ hcov
    refine ⟨_, y, ?_, hy, hstays.romUnitOk fun pc x h => .inr ⟨hprog, h⟩⟩
    simp [State.fetch, State.selectedRom, hprog, hrom1]

theorem unitStep_safe : Safe (unitStep s) := by
  cases hu : s.cur with
  | none =>
    have hrefused : unitStep s = .refused .noSuchUnit := by simp [unitStep, hu]
    exact hrefused ▸ safe_refused _
  | some u =>
    cases hst : u.st with
    | idle => exact unitStep_idle hu hst ▸ safe_next hinv
    | run =>
      obtain ⟨w, y, hw, hy, hok⟩ := fetched_completes hinv hu hst
      rw [unitStep_run hu hst hw, exec_ok hu hy]
      exact safe_next (romInv_put hinv hok)
    | fault r =>
      obtain ⟨-, -, -, hunits⟩ := hinv
      obtain ⟨hno, -⟩ := hunits u (State.mem_of_cur hu)
      exact absurd hst (hno r)

/-- An accepted request starts its unit at CINIT, which needs no register and no byte. -/
theorem submit_safe (r : Request) : Safe (s.submit r) := by
  refine ⟨State.submit_not_fault s r, fun t h => ?_⟩
  obtain ⟨hrom0, hrom1, hprog, hunits⟩ := hinv
  obtain ⟨u, -, -, -, hloaded, -, rfl⟩ := State.submit_next h
  refine ⟨hrom0, hrom1, hprog, fun x hx => ?_⟩
  obtain hx | rfl := List.mem_or_eq_of_mem_set hx
  · exact hunits x hx
  · exact ⟨nofun, fun _ => hloaded.imp (fun hp => ⟨hp, trivial⟩) (fun hp => ⟨hp, trivial⟩)⟩

/-- LOAD leaves every unit IDLE. -/
theorem load_safe (p : BitVec 2) : Safe (s.load p) := by
  refine ⟨State.load_not_fault s p, fun t h => ?_⟩
  obtain ⟨hrom0, hrom1, -, -⟩ := hinv
  obtain ⟨hp, hidle, rfl⟩ := State.load_next h
  have hlegal : p ≠ 3 := by obtain rfl | rfl := hp <;> decide
  refine ⟨hrom0, hrom1, hlegal, fun x hx => ?_⟩
  obtain ⟨u, hu, rfl⟩ := List.mem_map.mp hx
  exact romUnitOk_of_idle p (hidle u hu)

theorem monitorRead_safe (v a : Nat) (f : CounterField) : Safe (s.monitorRead v a f) := by
  refine ⟨State.monitorRead_not_fault s v a f, fun t h => ?_⟩
  obtain ⟨x, c, -, -, rfl⟩ := State.monitorRead_next h
  exact hinv

theorem step_safe : Safe (step s) := by
  cases hag : s.agenda with
  | nil => exact step_nil hag ▸ unitStep_safe hinv
  | cons m rest =>
    rw [step_cons hag]
    cases m with
    | unitStep v => exact unitStep_safe (s := { s with agenda := rest, turn := v }) hinv
    | request r => exact submit_safe (s := { s with agenda := rest }) hinv r
    | load p => exact load_safe (s := { s with agenda := rest }) hinv p
    | monitor v a f => exact monitorRead_safe (s := { s with agenda := rest }) hinv v a f

end

/-- Settles O55, by the move the step makes: a unit's own step completes by the coverage of its ROM. -/
theorem romsNeverFault : Obligations.RomsNeverFault := by
  unfold Obligations.RomsNeverFault
  exact fun s hinv => step_safe hinv

/-! ### Every run from power-on -/

theorem mem_units_powerOn {n : Nat} {lenMax : Offset} {cfg : BitVec 4} {u : UnitState}
    (h : u ∈ (State.powerOn n lenMax cfg).units) : u = UnitState.powerOn :=
  List.eq_of_mem_replicate h

theorem romInv_powerOn (n : Nat) (lenMax : Offset) (cfg : BitVec 4) : RomInv (State.powerOn n lenMax cfg) := by
  refine ⟨rfl, rfl, by simp [State.powerOn], fun u hu => ?_⟩
  rw [mem_units_powerOn hu]
  exact romUnitOk_of_idle _ rfl

/-- The ROM invariant holds along every run that starts with it. -/
theorem run_safe {s : State} (hinv : RomInv s) (k : Nat) : Safe (Host.Core.run core k s) := by
  induction k generalizing s with
  | zero => exact safe_next hinv
  | succ k ih =>
    obtain ⟨hno, hnext⟩ := step_safe hinv
    cases hstep : step s with
    | next t => exact run_succ_of_next hstep k ▸ ih (hnext t hstep)
    | fault f => exact absurd hstep (hno f)
    | refused r =>
      have hcore : core.step s = .refused r := hstep
      simp only [Host.Core.run, hcore]
      exact safe_refused r

/-- Settles O56: power-on has the ROM invariant, whatever the agenda. -/
theorem noUnitFaultsFromPowerOn : Obligations.NoUnitFaultsFromPowerOn := by
  unfold Obligations.NoUnitFaultsFromPowerOn
  intro n lenMax cfg ag k s
  obtain ⟨hno, hnext⟩ := run_safe (s := s) (romInv_powerOn n lenMax cfg) k
  refine ⟨hno, fun t ht u hu f => ?_⟩
  obtain ⟨-, -, -, hunits⟩ := hnext t ht
  obtain ⟨hst, -⟩ := hunits u hu
  exact hst f

end Sys2Proof.Machine
end

section
/-! PROOFS. The statements of 70_reset_and_hazards.md about power-on and LOAD (R146, R149). -/

namespace Sys2Proof.Machine

open Sys2Proof.Safety (Inv)

/-! ### Power-on (R146) -/

/-- Settles O10: every unit is that of power-on, and a request needs a program. -/
theorem powerOnState : Obligations.PowerOnState := by
  unfold Obligations.PowerOnState
  intro n lenMax cfg s
  refine ⟨rfl, rfl, List.length_replicate, fun u hu => ?unwritten, fun r rest => ?request⟩
  case unwritten =>
    rw [mem_units_powerOn hu]
    exact ⟨rfl, rfl, rfl, rfl, rfl, rfl, rfl, rfl, rfl, rfl, rfl⟩
  case request =>
    have hprog : s.prog ≠ 1 ∧ s.prog ≠ 2 := by simp [s, State.powerOn]
    exact requestWithoutMove { s with agenda := .request r :: rest } r rest rfl (.inr (.inl hprog))

/-- No unit runs and no program is attached, so Inv has no account to keep. -/
theorem inv_powerOn (n : Nat) (lenMax : Offset) (cfg : BitVec 4) : Inv (State.powerOn n lenMax cfg) := by
  refine ⟨by simp [State.powerOn], fun u hu => ?_⟩
  rw [mem_units_powerOn hu]
  exact ⟨⟨rfl, nofun, nofun⟩, nofun, fun hne => absurd rfl hne⟩

/-- Settles O53. -/
theorem invariantAtPowerOn : Obligations.InvariantAtPowerOn := by
  unfold Obligations.InvariantAtPowerOn
  exact fun n lenMax cfg => ⟨inv_powerOn n lenMax cfg, romInv_powerOn n lenMax cfg⟩

/-! ### LOAD (R149) -/

theorem State.load_ok {s : State} {p : BitVec 2} (hp : p = 1 ∨ p = 2) (hidle : ∀ u ∈ s.units, u.st = .idle) :
    s.load p = .next { s with prog := p, units := s.units.map UnitState.load } := by
  have hlegal : ¬ (p ≠ 1 ∧ p ≠ 2) := by tauto
  rw [State.load, if_neg hlegal, if_pos (by simpa using hidle)]

theorem Slice.get?_zero {a : Nat} (h : a < 5) : Slice.zero.get? a = some Record.zero := by
  match a, h with
  | 0, _ | 1, _ | 2, _ | 3, _ | 4, _ => rfl

/-- Settles O11: an accepted LOAD loads every unit, and one that has a next state was accepted. -/
theorem loadAttachesAndZeroes : Obligations.LoadAttachesAndZeroes := by
  unfold Obligations.LoadAttachesAndZeroes
  intro s p rest hag
  rw [step_cons hag]
  refine ⟨fun hp hidle => ?accepted, fun hbad t h => ?refused⟩
  case accepted =>
    have hload := State.load_ok (s := { s with agenda := rest }) hp hidle
    refine ⟨_, hload, rfl, rfl, rfl, rfl, rfl, rfl, List.length_map _, fun v y hy => ?_⟩
    obtain ⟨u, hu, rfl⟩ := List.mem_map.mp (List.mem_of_getElem? hy)
    exact ⟨hidle u hu, fun a => Slice.get?_zero, rfl, rfl, rfl, rfl, rfl, rfl, rfl, rfl, rfl, rfl⟩
  case refused =>
    obtain ⟨hp, hidle, -⟩ := State.load_next (s := { s with agenda := rest }) h
    obtain ⟨h1, h2⟩ | ⟨u, hu, hbusy⟩ := hbad
    · exact hp.elim h1 h2
    · exact hbusy (hidle u hu)

end Sys2Proof.Machine
end
